-- ==== Sys2Proof/Word.lean ====
section
/-! DEFINITION. The fixed-width values of the block, by the names the spec gives them. -/

namespace Sys2Proof

/-- One byte as the transport carries it (R12). -/
abbrev Byte := BitVec 8

/-- One 16-bit sensor register (R28). -/
abbrev Reg16 := BitVec 16

/-- A 4-bit field: exponent, sample counter, checksum, cfail (R14, R68). -/
abbrev Nibble := BitVec 4

/-- The reassembled 20-bit mantissa (R91). -/
abbrev Mantissa := BitVec 20

/-- The linear code, `CODE_W` = 35 bits (R92). -/
abbrev Code := BitVec 35

/-- A channel number 0..3 (R72). -/
abbrev Channel := BitVec 2

/-- The 28-bit parity input vector and the masks over it (R111, R112). -/
abbrev ParityVector := BitVec 28

/-- A binary64 value by its IEEE 754 encoding: sign 63, exponent 62:52, fraction 51:0 (R13). -/
abbrev F64 := BitVec 64

/-- A packed `ChannelSample` (R66). -/
abbrev SampleBits := BitVec 67

/-- The operand `arg` of a request and the `data` of a response (R65, R68). -/
abbrev PortBits := BitVec 268

end Sys2Proof
end

