-- ==== Sys2Proof/Config.lean ====
section
/-! DEFINITION. What a build of the block fixes (R8), the transport's side of the interface, and the one free value:
the answer the transport gives to a read (R171). -/

namespace Sys2Proof

/-- R42: the order of the two bytes inside each 16-bit register. -/
inductive ByteOrder where
  | big
  | little
  deriving DecidableEq, Repr

/-- R110: which 4-bit field is the third input of the parity trees. -/
inductive CsumSource where
  | counter
  | checksum
  deriving DecidableEq, Repr

/-- R112: `CSUM_MAP[0..3]`. -/
structure CsumMap where
  row0 : ParityVector
  row1 : ParityVector
  row2 : ParityVector
  row3 : ParityVector
  deriving DecidableEq, Repr

/-- R133: one row of `CAL`, columns 0 to 3. -/
structure CalRow where
  col0 : F64
  col1 : F64
  col2 : F64
  col3 : F64
  deriving DecidableEq, Repr

/-- R133: the calibration matrix, row = channel. -/
structure Cal where
  row0 : CalRow
  row1 : CalRow
  row2 : CalRow
  row3 : CalRow
  deriving DecidableEq, Repr

/-- R8: the parameters fixed when the block is built. DESIGN CHOICE (log 2, safe): a build stands beside the state so
that a claim can quantify over builds; no step writes it. `CODE_W` and `fp` are not here: R92 and R131 fix them. -/
structure Build where
  byteOrder : ByteOrder
  csumSource : CsumSource
  csumMap : CsumMap
  cal : Cal
  luxRow : BitVec 2
  luxCol : BitVec 2
  chBase : Byte
  chStride : Nat
  deriving DecidableEq, Repr

/-- R40, R41: the calls of the Register Transport. `writeBytes` is part of the interface and no operation issues it. -/
inductive Transaction where
  | readBytes (off : Byte) (count : BitVec 16)
  | writeBytes (off : Byte) (bytes : List Byte)
  deriving DecidableEq, Repr

/-- R40, R238: what the transport does with a read: it answers bytes (of any number), it answers `BusError`, or it
never answers. -/
inductive TransportAnswer where
  | ok (bytes : List Byte)
  | busError
  | silent
  deriving DecidableEq, Repr, Inhabited

/-- FREE VALUE (R171, 93 I14; log 4): the answer to the transaction that `n` transactions went before. It has no body,
so nothing can be proved of it but what holds of every answer. -/
opaque Config.transportAnswer (n : Nat) (t : Transaction) : TransportAnswer

end Sys2Proof
end

