-- ==== Sys2Proof/Machine/Defaults.lean ====
section
/-! DEFINITION. The default build: the `default` column of R8, which the vectors of 95_test_vectors.md use. Rows 1 to 3
of the checksum map, the calibration matrix and the register offsets are the spec's general knowledge, not its source
(93 G1 to G3; PRESUMED, log 3, unsafe): a claim meant for every build quantifies over `State.build` instead. -/

namespace Sys2Proof.Machine

/-- R113. -/
def defaultCsumMap : CsumMap where
  row0 := 0xFFFFFFF#28
  row1 := 0xAAAAAAA#28
  row2 := 0x8888888#28
  row3 := 0x0808080#28

/-- R133, the table of bit patterns. -/
def defaultCal : Cal where
  row0 := ⟨0x3F2EC9B36FF96482#64, 0xBEF3E2F14CDD6474#64, 0x3EE956072440E163#64, 0x0000000000000000#64⟩
  row1 := ⟨0x3F055CEF7774A915#64, 0x3F2A13EDF114B020#64, 0xBEF0A80BEF304025#64, 0x3F619CE075F6FD22#64⟩
  row2 := ⟨0x3F1857DBFCFD95D6#64, 0xBEF1CC69538C155D#64, 0x3F46161A314E3D90#64, 0x0000000000000000#64⟩
  row3 := ⟨0x0000000000000000#64, 0x0000000000000000#64, 0x0000000000000000#64, 0x0000000000000000#64⟩

/-- R8. -/
def defaultBuild : Build where
  byteOrder := .big
  csumSource := .counter
  csumMap := defaultCsumMap
  cal := defaultCal
  luxRow := 1#2
  luxCol := 3#2
  chBase := 0x00#8
  chStride := 2

end Sys2Proof.Machine
end

