-- ==== Sys2Proof/Syntax.lean ====
section
/-! DEFINITION. The records of R14, the raw byte blocks, the request, and the ten operations of R70. -/

namespace Sys2Proof

/-- R14: one decoded sample. Nothing relates `code` to the other fields: an operand may hold any record (92 D22). -/
structure ChannelSample where
  code : Code
  mantissa : Mantissa
  exponent : Nibble
  sampleCounter : Nibble
  checksum : Nibble
  deriving DecidableEq, Repr

/-- R14: four samples, channel 0 red, 1 green, 2 blue, 3 white. -/
structure QuadChannelFrame where
  ch0 : ChannelSample
  ch1 : ChannelSample
  ch2 : ChannelSample
  ch3 : ChannelSample
  deriving DecidableEq, Repr

/-- R14: what the host assembles from the responses of LUX, CHROMA and CCT; no single response carries it (R88). -/
structure DerivedColor where
  lux : F64
  x : F64
  y : F64
  cct : F64
  deriving DecidableEq, Repr

/-- R62: a channel block, four bytes in transmission order. -/
structure Raw4 where
  b0 : Byte
  b1 : Byte
  b2 : Byte
  b3 : Byte
  deriving DecidableEq, Repr

/-- R63: a frame block, four channel blocks in channel order; `ch2.b1` is `b[9]`. -/
structure Raw16 where
  ch0 : Raw4
  ch1 : Raw4
  ch2 : Raw4
  ch3 : Raw4
  deriving DecidableEq, Repr

/-- R65: a request as it stands on the command port. -/
structure Request where
  hdr : Byte
  arg : PortBits
  deriving DecidableEq, Repr

/-- R70: the ten operations, each with the operand it takes from the request. Every field has exactly the width the
spec gives it, so every term is a legal operation. -/
inductive Instr where
  | rdCtrl
  | wrCtrl (v : Byte)
  | decodeCh (raw : Raw4)
  | decodeFrame (raw : Raw16)
  | validate (sample : ChannelSample)
  | lux (frame : QuadChannelFrame)
  | chroma (frame : QuadChannelFrame)
  | cct (frame : QuadChannelFrame)
  | readCh (c : Channel)
  | readFrame
  deriving DecidableEq, Repr

end Sys2Proof
end

