-- ==== Sys2Proof/Machine/State.lean ====
section
/-! DEFINITION. The state of the block with its ports, the responses, the reasons to stop, and the state after reset. -/

namespace Sys2Proof.Machine

/-- R200: the statuses a response can carry; codes 5 to 7 do not exist. -/
inductive Status where
  | ok
  | busError
  | checksumError
  | domainError
  | illegalOp
  deriving DecidableEq, Repr

/-- R68: a response. -/
structure Response where
  status : Status
  cfail : Nibble
  data : PortBits
  deriving DecidableEq, Repr

/-- What the outside does to the block: present a request on the command port (R65), or pulse the reset pin (R230). -/
inductive PortEvent where
  | request (r : Request)
  | reset
  deriving DecidableEq, Repr

/-- Why a step stops. -/
inductive Fault where
  /-- Raised by `step` (through `State.fetch`) when an operation waits on a transport that never answers and the outside
  offers no further event: R238's stuck state. Safe: the hardware does nothing there either. -/
  | transportSilent
  deriving DecidableEq, Repr

/-- Why a step gives an operation no meaning. -/
inductive Refusal where
  /-- Raised by an arm of `exec` whose instruction has no meaning yet; no arm does so now. Safe: the machine stops. -/
  | notModelled (mnemonic : String)
  deriving DecidableEq, Repr

/-- The machine. `csumEn` is the whole architectural state (R31); `busy` is the transient condition of R30; `build` holds
the constants of R8 (log 2); the rest are the ports: what the outside has lined up (`inbox`, `answers`) and the
observable history of R243 (`responses`, `transactions`), which no operation reads back (log 9). -/
structure State where
  /-- R8: the parameters of this build. No step changes them. -/
  build : Build
  /-- R23: `CTRL.CSUM_EN`. -/
  csumEn : Bool
  /-- R30, R238: the operation whose transport read never came back, if there is one. -/
  busy : Option Instr
  /-- Port events still to come, oldest first. -/
  inbox : List PortEvent
  /-- Transport answers already fixed, oldest first; past the end the answer is `Config.transportAnswer` (log 4). -/
  answers : List TransportAnswer
  /-- R243: the responses given, oldest first. -/
  responses : List Response
  /-- R243: the transport transactions issued, oldest first. -/
  transactions : List Transaction
  deriving DecidableEq, Repr

/-- R231, R232: after reset `CSUM_EN` is 0, the block is idle, nothing is pending or in flight. The host has sent
nothing (log 6), no transport answer is fixed (log 4), and the build is R8's default (log 3). -/
def State.reset : State where
  build := defaultBuild
  csumEn := false
  busy := none
  inbox := []
  answers := []
  responses := []
  transactions := []

/-- What a transport read came to, as the block sees it (R40, R238). -/
inductive ReadResult where
  | data (bytes : List Byte)
  | busError
  | silent
  deriving DecidableEq, Repr

/-- What the command port holds for the next step. -/
inductive Fetched where
  /-- An operation to execute, and the state it starts in. -/
  | run (i : Instr) (s : State)
  /-- No operation starts; the step ends in this state. -/
  | settled (s : State)
  /-- Nothing can happen. -/
  | stuck (f : Fault)
  deriving DecidableEq, Repr

end Sys2Proof.Machine
end

