-- ==== Sys2Proof/Machine/Flags.lean ====
section
/-! DEFINITION. The computed outcome bits of a response: the parity bits of the checksum (R112), `match` (R114), `cfail`
and the status it implies (R172, R175). The block holds no flag between operations (R22). -/

namespace Sys2Proof.Machine

/-- The exclusive-or of bits `n-1 .. 0`. -/
def parityBelow {w : Nat} (v : BitVec w) : Nat → Bool
  | 0 => false
  | n + 1 => v.getLsbD n ^^ parityBelow v n

/-- R11: the exclusive-or of all bits of `v`. -/
def parity {w : Nat} (v : BitVec w) : Bool := parityBelow v w

/-- R110: the field `C`, by `CSUM_C_SRC`. -/
def thirdField (src : CsumSource) (s : ChannelSample) : Nibble :=
  match src with
  | .counter => s.sampleCounter
  | .checksum => s.checksum

/-- R111: `V = {E[3:0], M[19:0], C[3:0]}`. -/
def parityVector (src : CsumSource) (s : ChannelSample) : ParityVector :=
  s.exponent ++ s.mantissa ++ thirdField src s

/-- R112: `X[i] = parity(V & CSUM_MAP[i])`, as `X[3:0]`. -/
def computedChecksum (map : CsumMap) (v : ParityVector) : Nibble :=
  BitVec.ofBool (parity (v &&& map.row3)) ++ BitVec.ofBool (parity (v &&& map.row2)) ++
    BitVec.ofBool (parity (v &&& map.row1)) ++ BitVec.ofBool (parity (v &&& map.row0))

/-- R115 `checksum_ok`: `(match, X)`. -/
def checksumOk (b : Build) (s : ChannelSample) : Bool × Nibble :=
  let x := computedChecksum b.csumMap (parityVector b.csumSource s)
  (x == s.checksum, x)

/-- R117: does the check, where enabled, find a mismatch on this sample? -/
def mismatch (b : Build) (enabled : Bool) (s : ChannelSample) : Bool :=
  enabled && !(checksumOk b s).1

/-- R172: `1 << c` for a mismatch on the one channel read, else 0. -/
def channelCfail (b : Build) (enabled : Bool) (c : Channel) (s : ChannelSample) : Nibble :=
  if mismatch b enabled s then 1#4 <<< c.toNat else 0#4

/-- R175: bit `c` set for a mismatch on channel `c`; all four are always checked. -/
def frameCfail (b : Build) (enabled : Bool) (f : QuadChannelFrame) : Nibble :=
  BitVec.ofBool (mismatch b enabled f.ch3) ++ BitVec.ofBool (mismatch b enabled f.ch2) ++
    BitVec.ofBool (mismatch b enabled f.ch1) ++ BitVec.ofBool (mismatch b enabled f.ch0)

/-- R172, R175: CHECKSUM_ERROR with the full data when a bit of `cfail` is set, else OK. -/
def checkedResponse (cfail : Nibble) (data : PortBits) : Response :=
  if cfail = 0#4 then ⟨.ok, 0#4, data⟩ else ⟨.checksumError, cfail, data⟩

end Sys2Proof.Machine
end

