-- ==== Sys2Proof/Decode.lean ====
section
/-! DEFINITION. Operand packings (R66, R67), the total header decoder (R71), and the encoder, both written from the
operation map R70. -/

namespace Sys2Proof

/-! ### Packings of R66 and R67 -/

/-- R66: `S[66:0]`, from the most significant field down. -/
def ChannelSample.pack (s : ChannelSample) : SampleBits :=
  s.code ++ s.mantissa ++ s.exponent ++ s.sampleCounter ++ s.checksum

/-- R66, read back. -/
def ChannelSample.unpack (v : SampleBits) : ChannelSample where
  code := v.extractLsb' 32 35
  mantissa := v.extractLsb' 12 20
  exponent := v.extractLsb' 8 4
  sampleCounter := v.extractLsb' 4 4
  checksum := v.extractLsb' 0 4

/-- R67: `F[267:0]`, the sample of channel `c` at `F[67c+66 : 67c]`. -/
def QuadChannelFrame.pack (f : QuadChannelFrame) : PortBits :=
  f.ch3.pack ++ f.ch2.pack ++ f.ch1.pack ++ f.ch0.pack

/-- R67, read back. -/
def QuadChannelFrame.unpack (v : PortBits) : QuadChannelFrame where
  ch0 := ChannelSample.unpack (v.extractLsb' 0 67)
  ch1 := ChannelSample.unpack (v.extractLsb' 67 67)
  ch2 := ChannelSample.unpack (v.extractLsb' 134 67)
  ch3 := ChannelSample.unpack (v.extractLsb' 201 67)

/-- R67: byte `b[i]` at bits `8i+7 : 8i`. -/
def Raw4.pack (r : Raw4) : BitVec 32 :=
  r.b3 ++ r.b2 ++ r.b1 ++ r.b0

/-- R67, read back. -/
def Raw4.unpack (v : BitVec 32) : Raw4 where
  b0 := v.extractLsb' 0 8
  b1 := v.extractLsb' 8 8
  b2 := v.extractLsb' 16 8
  b3 := v.extractLsb' 24 8

/-- R67 with R63: channel `c`'s four bytes at bits `32c+31 : 32c`. -/
def Raw16.pack (r : Raw16) : BitVec 128 :=
  r.ch3.pack ++ r.ch2.pack ++ r.ch1.pack ++ r.ch0.pack

/-- R67 with R63, read back. -/
def Raw16.unpack (v : BitVec 128) : Raw16 where
  ch0 := Raw4.unpack (v.extractLsb' 0 32)
  ch1 := Raw4.unpack (v.extractLsb' 32 32)
  ch2 := Raw4.unpack (v.extractLsb' 64 32)
  ch3 := Raw4.unpack (v.extractLsb' 96 32)

/-! ### Header fields of R65 -/

/-- R65: `hdr[7:4]`. -/
def Request.op (r : Request) : BitVec 4 := r.hdr.extractLsb' 4 4

/-- R65: `hdr[3:2]`. -/
def Request.rsv (r : Request) : BitVec 2 := r.hdr.extractLsb' 2 2

/-- R65, R72: `hdr[1:0]`, the channel. -/
def Request.ch (r : Request) : Channel := r.hdr.extractLsb' 0 2

/-! ### The decoder -/

/-- Why a header is illegal (R73). The response is ILLEGAL_OP for each alike. -/
inductive DecodeError where
  /-- `op` in 0xA..0xF -/
  | unassignedOp
  /-- `rsv` is not 0 -/
  | reservedNonzero
  /-- `ch` is not 0 and `op` is not 0x8 -/
  | strayChannel
  deriving DecidableEq, Repr

/-- One row of the operation map R70: a header matches when `hdr & mask = pattern`. -/
structure OpcodeRow where
  mask : Byte
  pattern : Byte
  operation : Request → Instr

/-- R70: the operation map, in the table's order. -/
def opcodeTable : List OpcodeRow :=
  [ ⟨0xFF#8, 0x00#8, fun _ => .rdCtrl⟩,
    ⟨0xFF#8, 0x10#8, fun r => .wrCtrl (r.arg.extractLsb' 0 8)⟩,
    ⟨0xFF#8, 0x20#8, fun r => .decodeCh (Raw4.unpack (r.arg.extractLsb' 0 32))⟩,
    ⟨0xFF#8, 0x30#8, fun r => .decodeFrame (Raw16.unpack (r.arg.extractLsb' 0 128))⟩,
    ⟨0xFF#8, 0x40#8, fun r => .validate (ChannelSample.unpack (r.arg.extractLsb' 0 67))⟩,
    ⟨0xFF#8, 0x50#8, fun r => .lux (QuadChannelFrame.unpack r.arg)⟩,
    ⟨0xFF#8, 0x60#8, fun r => .chroma (QuadChannelFrame.unpack r.arg)⟩,
    ⟨0xFF#8, 0x70#8, fun r => .cct (QuadChannelFrame.unpack r.arg)⟩,
    ⟨0xFC#8, 0x80#8, fun r => .readCh r.ch⟩,
    ⟨0xFF#8, 0x90#8, fun _ => .readFrame⟩ ]

/-- R71: does this row select this header? -/
def OpcodeRow.selects (row : OpcodeRow) (hdr : Byte) : Bool :=
  hdr &&& row.mask == row.pattern

/-- R73: the name of what is wrong with a header that no row selects. -/
def illegalReason (r : Request) : DecodeError :=
  if 9 < r.op.toNat then .unassignedOp
  else if r.rsv ≠ 0#2 then .reservedNonzero
  else .strayChannel

/-- R71: total. A header that matches a row selects that operation; one that matches none is illegal. -/
def decode (r : Request) : Except DecodeError Instr :=
  match opcodeTable.find? (fun row => row.selects r.hdr) with
  | some row => .ok (row.operation r)
  | none => .error (illegalReason r)

/-! ### The encoder -/

/-- R70: the request for an operation, every `arg` bit outside the operand 0. -/
def encode : Instr → Request
  | .rdCtrl => ⟨0x00#8, 0#268⟩
  | .wrCtrl v => ⟨0x10#8, v.setWidth 268⟩
  | .decodeCh raw => ⟨0x20#8, raw.pack.setWidth 268⟩
  | .decodeFrame raw => ⟨0x30#8, raw.pack.setWidth 268⟩
  | .validate sample => ⟨0x40#8, sample.pack.setWidth 268⟩
  | .lux frame => ⟨0x50#8, frame.pack⟩
  | .chroma frame => ⟨0x60#8, frame.pack⟩
  | .cct frame => ⟨0x70#8, frame.pack⟩
  | .readCh c => ⟨0x80#8 ||| c.setWidth 8, 0#268⟩
  | .readFrame => ⟨0x90#8, 0#268⟩

/-! ### Pseudo-operations (R88) -/

/-- R88: opt in to checksum validation. -/
def enCsum : Instr := .wrCtrl 0x01#8

/-- R88: opt out. -/
def disCsum : Instr := .wrCtrl 0x00#8

/-- R88 `DERIVE f`: three operations, from whose responses the host assembles a `DerivedColor`. -/
def deriveOperations (f : QuadChannelFrame) : List Instr := [.lux f, .chroma f, .cct f]

/-! ### The opcode table's numbering -/

/-- The request whose bits are `w` as spec/opcode_table.json numbers them: bits 7..0 are the header, bit 8 on is `arg`;
every bit from `nbits` up is 0. -/
def Request.ofTableWord (nbits w : Nat) : Request where
  hdr := BitVec.ofNat 8 (w % 2 ^ nbits)
  arg := BitVec.ofNat 268 ((w % 2 ^ nbits) >>> 8)

/-- The operation the decoder reads from such a word. -/
def decodeTableWord (nbits w : Nat) : Option Instr :=
  match decode (Request.ofTableWord nbits w) with
  | .ok i => some i
  | .error _ => none

end Sys2Proof
end

