-- ==== Sys2Proof/Machine/Operands.lean ====
section
/-! DEFINITION. Every operand form and result shape: bytes into channel blocks and registers (R42, R62), register offsets
(R170), the codes of a frame operand (R135), entries of `CAL` (R133), and the `data` of each response (R69). -/

namespace Sys2Proof.Machine

/-! ### Bytes and registers -/

/-- R12, R62: the first four bytes of a byte vector; `MemRead` has already checked the length (R40). -/
def raw4OfBytes (b : List Byte) : Raw4 :=
  ⟨b.getD 0 0#8, b.getD 1 0#8, b.getD 2 0#8, b.getD 3 0#8⟩

/-- R63: channel `c` is bytes `4c .. 4c+3`. -/
def raw16OfBytes (b : List Byte) : Raw16 :=
  ⟨raw4OfBytes b, raw4OfBytes (b.drop 4), raw4OfBytes (b.drop 8), raw4OfBytes (b.drop 12)⟩

/-- R42: one 16-bit register from two consecutive bytes. -/
def registerOf (order : ByteOrder) (first second : Byte) : Reg16 :=
  match order with
  | .big => first ++ second
  | .little => second ++ first

/-- R62: `RH`, always bytes 0 and 1 (R43). -/
def highRegister (order : ByteOrder) (raw : Raw4) : Reg16 := registerOf order raw.b0 raw.b1

/-- R62: `RL`, always bytes 2 and 3 (R43). -/
def lowRegister (order : ByteOrder) (raw : Raw4) : Reg16 := registerOf order raw.b2 raw.b3

/-! ### Register offsets -/

/-- R170: `CH_BASE + c * CH_STRIDE`, an 8-bit offset; R9 keeps it from wrapping (log 13). -/
def channelOffset (b : Build) (c : Channel) : Byte :=
  BitVec.ofNat 8 (b.chBase.toNat + c.toNat * b.chStride)

/-- R46: the size of a channel block. -/
def channelBytes : BitVec 16 := 4#16

/-- R46: the size of a frame block. -/
def frameBytes : BitVec 16 := 16#16

/-! ### CAL -/

/-- R133: column `k` of a row. -/
def calColumn (r : CalRow) (k : BitVec 2) : F64 :=
  match k.toNat with
  | 0 => r.col0
  | 1 => r.col1
  | 2 => r.col2
  | _ => r.col3

/-- R133: `CAL[r][k]`. -/
def calEntry (m : Cal) (r k : BitVec 2) : F64 :=
  match r.toNat with
  | 0 => calColumn m.row0 k
  | 1 => calColumn m.row1 k
  | 2 => calColumn m.row2 k
  | _ => calColumn m.row3 k

/-! ### Result shapes -/

/-- R200: the 3-bit code of a status. -/
def statusCode : Status → BitVec 3
  | .ok => 0#3
  | .busError => 1#3
  | .checksumError => 2#3
  | .domainError => 3#3
  | .illegalOp => 4#3

/-- R69: `data[7:0] = CTRL`. -/
def ctrlData (ctrl : Byte) : PortBits := ctrl.setWidth 268

/-- R69: `data[66:0]` = the sample. -/
def sampleData (s : ChannelSample) : PortBits := s.pack.setWidth 268

/-- R69: `data[267:0]` = the frame. -/
def frameData (f : QuadChannelFrame) : PortBits := f.pack

/-- R69: `data[0] = match`, `data[4:1] = computed[3:0]`. -/
def validateData (isMatch : Bool) (computed : Nibble) : PortBits :=
  (computed ++ BitVec.ofBool isMatch).setWidth 268

/-- R69: one binary64 in `data[63:0]`. -/
def f64Data (a : F64) : PortBits := a.setWidth 268

/-- R69: `x` in `data[63:0]`, `y` in `data[127:64]`. -/
def chromaData (x y : F64) : PortBits := (y ++ x).setWidth 268

end Sys2Proof.Machine
end

