-- ==== Sys2Proof/Machine/Ops.lean ====
section
/-! DEFINITION. The named operations over the state: CTRL, giving a response, raising an error, reading through the
Register Transport, hanging on it, reset, and taking the next event off the command port. -/

namespace Sys2Proof.Machine

/-! ### CTRL (R23) -/

/-- R23: the 8-bit view, bits 7:1 hardwired 0. -/
def State.ctrl (s : State) : Byte :=
  (BitVec.ofBool s.csumEn).setWidth 8

/-- R191: only bit 0 is taken. -/
def State.writeCtrl (s : State) (v : Byte) : State :=
  { s with csumEn := v.getLsbD 0 }

/-! ### Responses and errors -/

/-- R13 `respond(status, cfail, data)`: the response leaves on the response port. -/
def State.respond (s : State) (r : Response) : State :=
  { s with responses := s.responses ++ [r] }

/-- R204 `raise <Status>`: the response carries the status, an all-zero cfail and all-zero data, and nothing else changes. There is
nothing to save (R204) and nothing to return from (R207). -/
def State.raise (s : State) (status : Status) : State :=
  s.respond ⟨status, 0#4, 0#268⟩

/-- A response with status OK and no mismatch. -/
def okResponse (data : PortBits) : Response := ⟨.ok, 0#4, data⟩

/-! ### The Register Transport -/

/-- R171: the answer the transport gives to a read: the next one fixed in the state, else the free value of this draw. -/
def State.nextAnswer (s : State) (t : Transaction) : TransportAnswer :=
  match s.answers with
  | a :: _ => a
  | [] => Config.transportAnswer s.transactions.length t

/-- R40: exactly `count` bytes are data; an answer of any other length is treated as BusError. -/
def readResult (count : BitVec 16) : TransportAnswer → ReadResult
  | .ok bytes => if bytes.length = count.toNat then .data bytes else .busError
  | .busError => .busError
  | .silent => .silent

/-- R243: the transaction enters the log, and its answer is used up. -/
def State.issue (s : State) (t : Transaction) : State :=
  { s with transactions := s.transactions ++ [t], answers := s.answers.drop 1 }

/-- R238: the transport never answers, so the operation stays in progress and no response is given. -/
def State.hang (s : State) (i : Instr) : State :=
  { s with busy := some i }

/-- R40, R172, R175: operation `i` issues `MemRead(off, count)`, one transaction; with the bytes it gives the response
`onData` makes of them, on BusError it raises BUS_ERROR (R56), and without an answer it hangs (R238). -/
def State.readThen (s : State) (i : Instr) (off : Byte) (count : BitVec 16) (onData : List Byte → Response) : State :=
  match readResult count (s.nextAnswer (.readBytes off count)) with
  | .data bytes => (s.issue (.readBytes off count)).respond (onData bytes)
  | .busError => (s.issue (.readBytes off count)).raise .busError
  | .silent => (s.issue (.readBytes off count)).hang i

/-! ### Reset -/

/-- R230, R232: `CTRL <- 0`; an operation in progress is abandoned without a response. The build, the history and the
environment are not the block's to reset (R231, log 8). -/
def State.pinReset (s : State) : State :=
  { s with csumEn := false, busy := none }

/-! ### The command port -/

/-- R71, R73: an idle block takes the request: a legal header starts its operation, an illegal one is answered with
ILLEGAL_OP, without a transport access and with CTRL unchanged. -/
def State.accept (s : State) (r : Request) : Fetched :=
  match decode r with
  | .ok i => .run i s
  | .error _ => .settled (s.raise .illegalOp)

/-- R236: the next event at the ports. A request while busy is not accepted: it has no effect and gets no response.
Reset ends a wait (R238). An idle block with no request stays idle (R203); a waiting block that nothing reaches is stuck. -/
def State.fetch (s : State) : Fetched :=
  match s.inbox with
  | [] => if s.busy.isSome then .stuck .transportSilent else .settled s
  | .reset :: rest => .settled { s with inbox := rest }.pinReset
  | .request r :: rest =>
    if s.busy.isSome then .settled { s with inbox := rest } else { s with inbox := rest }.accept r

/-- A request put at the front of the command port of an idle block: it is the next one taken. -/
def State.present (s : State) (r : Request) : State :=
  { s with busy := none, inbox := .request r :: s.inbox }

end Sys2Proof.Machine
end

