-- ==== Sys2Proof/Machine/Checksum.lean ====
section
/-! DEFINITION. The Checksum Validator's own operation: R116. -/

namespace Sys2Proof.Machine

/-- R116 VALIDATE: status OK whether or not the checksum matches; `code` and `CSUM_EN` are not read. -/
def execValidate (sample : ChannelSample) (s : State) : Host.Outcome State Fault Refusal :=
  let r := checksumOk s.build sample
  .next (s.respond (okResponse (validateData r.1 r.2)))

end Sys2Proof.Machine
end

