-- ==== Sys2Proof/Machine/Float64.lean ====
section
/-! DEFINITION. IEEE 754 binary64 arithmetic (R130 to R132): each operation computes the exact result over the integers and
rounds it once, to nearest, ties to even. Every finite binary64 is a whole number of units of 2^-1074, so the exact results of
`fadd` and `fmul` are integers over a power of two, and that of `fdiv` a quotient of two integers. -/

namespace Sys2Proof.Machine

/-- A binary64 as a value. `finite neg units` is `units * 2^-1074`, negated when `neg`: zero keeps its sign. -/
inductive FpValue where
  | nan
  | infinite (neg : Bool)
  | finite (neg : Bool) (units : Nat)
  deriving DecidableEq, Repr

/-- R13: exponent field, bits 62:52. -/
def expField (a : F64) : Nat := (a.extractLsb' 52 11).toNat

/-- R13: fraction field, bits 51:0. -/
def fracField (a : F64) : Nat := (a.extractLsb' 0 52).toNat

/-- R13: sign, bit 63. -/
def signField (a : F64) : Bool := a.getLsbD 63

/-- The magnitude in units of a finite encoding: subnormals have no hidden one. -/
def unitsOf (e f : Nat) : Nat :=
  if e = 0 then f else (2 ^ 52 + f) * 2 ^ (e - 1)

/-- What an encoding stands for. -/
def fpValue (a : F64) : FpValue :=
  if expField a = 2047 then
    if fracField a = 0 then .infinite (signField a) else .nan
  else .finite (signField a) (unitsOf (expField a) (fracField a))

/-- One, in units. -/
def oneUnits : Nat := 2 ^ 1074

/-- The 63 low bits of an infinity. -/
def infBits : Nat := 2047 * 2 ^ 52

/-- Sign bit and magnitude bits. -/
def withSign (neg : Bool) (mag : Nat) : F64 :=
  BitVec.ofNat 64 (if neg then 2 ^ 63 + mag else mag)

/-- The result of an invalid operation. DESIGN CHOICE (log 11, safe in every build R9 allows): the spec gives no NaN pattern and no
response carries one (R145). -/
def quietNaN : F64 := 0x7FF8000000000000#64

/-- `a / b` to the nearest integer, ties to even. -/
def roundHalfEven (a b : Nat) : Nat :=
  let d := a / b
  let r := a % b
  if b < 2 * r ∨ (2 * r = b ∧ d % 2 = 1) then d + 1 else d

/-- R131: the magnitude bits of the binary64 nearest to `num / den` units, ties to even. `k` is how far the unit in the last
place stands above 2^-1074 (0 for subnormals: gradual underflow); a carry out of the fraction steps the exponent by itself; past the
largest finite number the result is infinity. -/
def roundMag (num den : Nat) : Nat :=
  let k := (num / den).log2 - 52
  let m := roundHalfEven num (den * 2 ^ k)
  min (2 ^ 52 * k + m) infBits

/-- R131: the one rounding of an operation. -/
def roundTo (neg : Bool) (num den : Nat) : F64 := withSign neg (roundMag num den)

/-- The signed number of units. -/
def signedUnits (neg : Bool) (units : Nat) : Int := if neg then -(units : Int) else units

/-- The number a finite encoding stands for, in units of 2^-1074. -/
def fpUnits (a : F64) : Int := signedUnits (signField a) (unitsOf (expField a) (fracField a))

/-- R131 `fadd`. An exact zero sum is +0 unless both operands are negative zeros. -/
def fadd (a b : F64) : F64 :=
  match fpValue a, fpValue b with
  | .nan, _ => quietNaN
  | .infinite _, .nan => quietNaN
  | .finite _ _, .nan => quietNaN
  | .infinite s, .infinite t => if s = t then withSign s infBits else quietNaN
  | .infinite s, .finite _ _ => withSign s infBits
  | .finite _ _, .infinite t => withSign t infBits
  | .finite s m, .finite t n =>
    let z := signedUnits s m + signedUnits t n
    if z = 0 then withSign (s && t) 0 else roundTo (decide (z < 0)) z.natAbs 1

/-- Sign change. -/
def fneg (a : F64) : F64 := a ^^^ 0x8000000000000000#64

/-- R131 `fsub`. -/
def fsub (a b : F64) : F64 := fadd a (fneg b)

/-- R131 `fmul`. -/
def fmul (a b : F64) : F64 :=
  match fpValue a, fpValue b with
  | .nan, _ => quietNaN
  | .infinite _, .nan => quietNaN
  | .finite _ _, .nan => quietNaN
  | .infinite s, .infinite t => withSign (s ^^ t) infBits
  | .infinite s, .finite t n => if n = 0 then quietNaN else withSign (s ^^ t) infBits
  | .finite s m, .infinite t => if m = 0 then quietNaN else withSign (s ^^ t) infBits
  | .finite s m, .finite t n => roundTo (s ^^ t) (m * n) oneUnits

/-- R131 `fdiv`. -/
def fdiv (a b : F64) : F64 :=
  match fpValue a, fpValue b with
  | .nan, _ => quietNaN
  | .infinite _, .nan => quietNaN
  | .finite _ _, .nan => quietNaN
  | .infinite _, .infinite _ => quietNaN
  | .infinite s, .finite t _ => withSign (s ^^ t) infBits
  | .finite s _, .infinite t => withSign (s ^^ t) 0
  | .finite s m, .finite t n =>
    if n = 0 then (if m = 0 then quietNaN else withSign (s ^^ t) infBits)
    else roundTo (s ^^ t) (oneUnits * m) n

/-- R132 `u2f`: exact below 2^53. -/
def u2f (n : Nat) : F64 := roundTo false (oneUnits * n) 1

/-- R13 `feq`: equal numbers; +0 equals -0; false when either is a NaN. -/
def feq (a b : F64) : Bool :=
  match fpValue a, fpValue b with
  | .infinite s, .infinite t => s == t
  | .finite s m, .finite t n => signedUnits s m == signedUnits t n
  | _, _ => false

/-- R13 `isfinite`. -/
def isFinite (a : F64) : Bool := expField a != 2047

end Sys2Proof.Machine
end

