-- ==== Sys2Proof/Machine/Colorimetry.lean ====
section
/-! DEFINITION. The Colorimetry Engine: R136 to R142. -/

namespace Sys2Proof.Machine

/-- Why `chroma` or `mccamy` answers DomainError; R206's order. A response does not tell them apart (R201, log 16). -/
inductive DomainCause where
  | zeroSum
  | nonFiniteQuotient
  | yEqualsKY
  | nonFinitePolynomial
  deriving DecidableEq, Repr

/-- R137: `X`, `Y`, `Z`. -/
structure Tristimulus where
  X : F64
  Y : F64
  Z : F64
  deriving DecidableEq, Repr

/-- R138: `x`, `y`. -/
structure Chromaticity where
  x : F64
  y : F64
  deriving DecidableEq, Repr

/-! ### LUX -/

/-- R136: `code[1]` times `CAL[LUX_ROW][LUX_COL]`; the code is channel 1's in every build. -/
def luxOf (b : Build) (f : QuadChannelFrame) : F64 :=
  fmul (u2f f.ch1.code.toNat) (calEntry b.cal b.luxRow b.luxCol)

/-- R136 LUX. -/
def execLux (f : QuadChannelFrame) (s : State) : Host.Outcome State Fault Refusal :=
  .next (s.respond (okResponse (f64Data (luxOf s.build f))))

/-! ### CHROMA -/

/-- R137: `T[k]`, products rounded before the sums, channel 0 first. -/
def tristimulusColumn (m : Cal) (f : QuadChannelFrame) (k : BitVec 2) : F64 :=
  let p0 := fmul (u2f f.ch0.code.toNat) (calEntry m 0#2 k)
  let p1 := fmul (u2f f.ch1.code.toNat) (calEntry m 1#2 k)
  let p2 := fmul (u2f f.ch2.code.toNat) (calEntry m 2#2 k)
  fadd (fadd p0 p1) p2

/-- R137 `xyz`. -/
def xyz (m : Cal) (f : QuadChannelFrame) : Tristimulus where
  X := tristimulusColumn m f 0#2
  Y := tristimulusColumn m f 1#2
  Z := tristimulusColumn m f 2#2

/-- R138: `S`. -/
def tristimulusSum (t : Tristimulus) : F64 := fadd (fadd t.X t.Y) t.Z

/-- R138, from the tristimulus values on. -/
def chromaOf (t : Tristimulus) : Except DomainCause Chromaticity :=
  let sum := tristimulusSum t
  if feq sum 0#64 then .error .zeroSum
  else
    let x := fdiv t.X sum
    let y := fdiv t.Y sum
    if !isFinite x || !isFinite y then .error .nonFiniteQuotient else .ok ⟨x, y⟩

/-- R138 `chroma`. -/
def chroma (m : Cal) (f : QuadChannelFrame) : Except DomainCause Chromaticity :=
  chromaOf (xyz m f)

/-- R139: the response to what `chroma` answers. -/
def chromaResponse : Except DomainCause Chromaticity → Response
  | .error _ => ⟨.domainError, 0#4, 0#268⟩
  | .ok c => okResponse (chromaData c.x c.y)

/-- R139 CHROMA. -/
def execChroma (f : QuadChannelFrame) (s : State) : Host.Outcome State Fault Refusal :=
  .next (s.respond (chromaResponse (chroma s.build.cal f)))

/-! ### CCT -/

/-- R140: 0.3320. UNVERIFIED (R4, 93 I15; log 19, unsafe for a claim about a chip), as are the five literals below: the spec takes them
as its document writes them. -/
def kX : F64 := 0x3FD53F7CED916873#64

/-- R140: 0.1858. -/
def kY : F64 := 0x3FC7C84B5DCC63F1#64

/-- R140: 437. -/
def mccamyA3 : F64 := 0x407B500000000000#64

/-- R140: 3601. -/
def mccamyA2 : F64 := 0x40AC220000000000#64

/-- R140: 6861. -/
def mccamyA1 : F64 := 0x40BACD0000000000#64

/-- R140: 5517. -/
def mccamyA0 : F64 := 0x40B58D0000000000#64

/-- R141: the polynomial in `n`, left to right as written. -/
def mccamyPolynomial (n : F64) : F64 :=
  let n2 := fmul n n
  let n3 := fmul n2 n
  fadd (fadd (fadd (fmul mccamyA3 n3) (fmul mccamyA2 n2)) (fmul mccamyA1 n)) mccamyA0

/-- R141: `n`. -/
def mccamyN (c : Chromaticity) : F64 := fdiv (fsub c.x kX) (fsub kY c.y)

/-- R141 `mccamy`. -/
def mccamy (c : Chromaticity) : Except DomainCause F64 :=
  if feq c.y kY then .error .yEqualsKY
  else
    let cct := mccamyPolynomial (mccamyN c)
    if isFinite cct then .ok cct else .error .nonFinitePolynomial

/-- R142: chromaticity, then McCamy; the first test that fires ends it. -/
def cctOf (m : Cal) (f : QuadChannelFrame) : Except DomainCause F64 :=
  match chroma m f with
  | .error cause => .error cause
  | .ok c => mccamy c

/-- R142: the response to what `cctOf` answers. -/
def cctResponse : Except DomainCause F64 → Response
  | .error _ => ⟨.domainError, 0#4, 0#268⟩
  | .ok cct => okResponse (f64Data cct)

/-- R142 CCT. -/
def execCct (f : QuadChannelFrame) (s : State) : Host.Outcome State Fault Refusal :=
  .next (s.respond (cctResponse (cctOf s.build.cal f)))

/-! ### DERIVE -/

/-- R14, R88 (log 12): the four numbers the host assembles from LUX, CHROMA and CCT on one frame; DomainError when CHROMA or CCT fails. -/
def derivedColor (b : Build) (f : QuadChannelFrame) : Except DomainCause DerivedColor :=
  match chroma b.cal f with
  | .error cause => .error cause
  | .ok c =>
    match mccamy c with
    | .error cause => .error cause
    | .ok cct => .ok ⟨luxOf b f, c.x, c.y, cct⟩

end Sys2Proof.Machine
end

