-- ==== Sys2Proof/Machine/Control.lean ====
section
/-! DEFINITION. The control-register operations: R190, R191. -/

namespace Sys2Proof.Machine

/-- R190 RD_CTRL. -/
def execRdCtrl (s : State) : Host.Outcome State Fault Refusal :=
  .next (s.respond (okResponse (ctrlData s.ctrl)))

/-- R191 WR_CTRL: every `v` is accepted, bits 7:1 are ignored. -/
def execWrCtrl (v : Byte) (s : State) : Host.Outcome State Fault Refusal :=
  .next ((s.writeCtrl v).respond (okResponse 0#268))

end Sys2Proof.Machine
end

