-- ==== Sys2Proof/Machine/SampleDecoder.lean ====
section
/-! DEFINITION. The Sample Decoder: R90 to R96. -/

namespace Sys2Proof.Machine

/-- R91: `{mantissa_high, mantissa_low}`. -/
def mantissaOf (rh rl : Reg16) : Mantissa :=
  rh.extractLsb' 0 12 ++ rl.extractLsb' 8 8

/-- R92: `mantissa << exponent` in 35 bits, which hold every value. -/
def codeOf (m : Mantissa) (e : Nibble) : Code :=
  m.setWidth 35 <<< e.toNat

/-- R90 to R94 `decode_sample`. Exponents above 11 are like the others (R93); the checksum is copied, not checked.
UNVERIFIED (R4, 93 I15; log 19, unsafe for a claim about a chip): the field layouts of R60 and R61 are readings of a document. -/
def decodeSample (order : ByteOrder) (raw : Raw4) : ChannelSample :=
  let rh := highRegister order raw
  let rl := lowRegister order raw
  let m := mantissaOf rh rl
  let e := rh.extractLsb' 12 4
  { code := codeOf m e
    mantissa := m
    exponent := e
    sampleCounter := rl.extractLsb' 4 4
    checksum := rl.extractLsb' 0 4 }

/-- R96: four independent decodings. -/
def decodeQuad (order : ByteOrder) (raw : Raw16) : QuadChannelFrame where
  ch0 := decodeSample order raw.ch0
  ch1 := decodeSample order raw.ch1
  ch2 := decodeSample order raw.ch2
  ch3 := decodeSample order raw.ch3

/-- R95 DECODE_CH. `CSUM_EN` is not consulted. -/
def execDecodeCh (raw : Raw4) (s : State) : Host.Outcome State Fault Refusal :=
  .next (s.respond (okResponse (sampleData (decodeSample s.build.byteOrder raw))))

/-- R96 DECODE_FRAME. `CSUM_EN` is not consulted. -/
def execDecodeFrame (raw : Raw16) (s : State) : Host.Outcome State Fault Refusal :=
  .next (s.respond (okResponse (frameData (decodeQuad s.build.byteOrder raw))))

end Sys2Proof.Machine
end

