-- ==== Sys2Proof/Machine/TransportOps.lean ====
section
/-! DEFINITION. The operations that read the sensor: R172, R175. -/

namespace Sys2Proof.Machine

/-- R172: the response to the four bytes of channel `c`. -/
def channelResponse (b : Build) (enabled : Bool) (c : Channel) (bytes : List Byte) : Response :=
  let sample := decodeSample b.byteOrder (raw4OfBytes bytes)
  checkedResponse (channelCfail b enabled c sample) (sampleData sample)

/-- R175: the response to the sixteen bytes of a frame. -/
def frameResponse (b : Build) (enabled : Bool) (bytes : List Byte) : Response :=
  let frame := decodeQuad b.byteOrder (raw16OfBytes bytes)
  checkedResponse (frameCfail b enabled frame) (frameData frame)

/-- R172 READ_CH: one read of 4 bytes at the channel's high register. -/
def execReadCh (c : Channel) (s : State) : Host.Outcome State Fault Refusal :=
  .next (s.readThen (.readCh c) (channelOffset s.build c) channelBytes (channelResponse s.build s.csumEn c))

/-- R175 READ_FRAME: ONE read of 16 bytes at `CH_BASE`. -/
def execReadFrame (s : State) : Host.Outcome State Fault Refusal :=
  .next (s.readThen .readFrame s.build.chBase frameBytes (frameResponse s.build s.csumEn))

end Sys2Proof.Machine
end

