-- ==== Sys2Proof/Machine/Dispatch.lean ====
section
/-! DEFINITION. One arm per operation of R70. -/

namespace Sys2Proof.Machine

def exec (i : Instr) (s : State) : Host.Outcome State Fault Refusal :=
  match i with
  | .rdCtrl => Sys2Proof.Machine.execRdCtrl s
  | .wrCtrl v => Sys2Proof.Machine.execWrCtrl v s
  | .decodeCh raw => Sys2Proof.Machine.execDecodeCh raw s
  | .decodeFrame raw => Sys2Proof.Machine.execDecodeFrame raw s
  | .validate sample => Sys2Proof.Machine.execValidate sample s
  | .lux frame => Sys2Proof.Machine.execLux frame s
  | .chroma frame => Sys2Proof.Machine.execChroma frame s
  | .cct frame => Sys2Proof.Machine.execCct frame s
  | .readCh c => Sys2Proof.Machine.execReadCh c s
  | .readFrame => Sys2Proof.Machine.execReadFrame s

end Sys2Proof.Machine
end

