-- ==== Sys2Proof/Machine/Step.lean ====
section
/-! DEFINITION. One step: the next event at the ports, and, where it is a legal request, the whole of its operation
(92 D1: one request, one response). -/

namespace Sys2Proof.Machine

/-- What the command port holds decides the step. -/
def step (s : State) : Host.Outcome State Fault Refusal :=
  match s.fetch with
  | .run i t => exec i t
  | .settled t => .next t
  | .stuck f => .fault f

/-- `s` with the request whose bits are `w` (spec/opcode_table.json's numbering) presented next to an idle block. -/
def State.withFetchWord (s : State) (nbits w : Nat) : State :=
  s.present (Request.ofTableWord nbits w)

end Sys2Proof.Machine
end

