-- ==== Sys2Proof/WellFormed.lean ====
section
/-! DEFINITION. The checks the spec puts on data whose type does not already carry them: a build (R9), and a request
that an encoder may emit (R65, R70). An `Instr` needs none: its fields have the spec's exact widths. -/

namespace Sys2Proof

/-- R9: row 0 of the checksum map covers all 28 bits. -/
def Build.csumRowFull (b : Build) : Bool :=
  b.csumMap.row0 == 0xFFFFFFF#28

/-- R9: a coefficient is finite and of magnitude below 2^900, that is, its biased exponent is below 1023 + 900. -/
def calEntryBounded (a : F64) : Bool :=
  decide ((a.extractLsb' 52 11).toNat < 1923)

/-- R9, for one row of `CAL`. -/
def CalRow.bounded (r : CalRow) : Bool :=
  calEntryBounded r.col0 && calEntryBounded r.col1 && calEntryBounded r.col2 && calEntryBounded r.col3

/-- R9, for every entry of `CAL`. -/
def Cal.bounded (m : Cal) : Bool :=
  m.row0.bounded && m.row1.bounded && m.row2.bounded && m.row3.bounded

/-- R9: the last register read still has an 8-bit offset. -/
def Build.offsetsFit (b : Build) : Bool :=
  decide (b.chBase.toNat + 3 * b.chStride + 1 ≤ 255)

/-- R9: the constraints on the parameters. -/
def Build.wf (b : Build) : Bool :=
  b.csumRowFull && b.cal.bounded && b.offsetsFit

/-- R70: how many low bits of `arg` the operand of a legal header occupies; `none` for an illegal header (R73). -/
def Request.operandWidth (hdr : Byte) : Option Nat :=
  if hdr = 0x00#8 then some 0
  else if hdr = 0x10#8 then some 8
  else if hdr = 0x20#8 then some 32
  else if hdr = 0x30#8 then some 128
  else if hdr = 0x40#8 then some 67
  else if hdr = 0x50#8 ∨ hdr = 0x60#8 ∨ hdr = 0x70#8 then some 268
  else if hdr &&& 0xFC#8 = 0x80#8 then some 0
  else if hdr = 0x90#8 then some 0
  else none

/-- A legal header, and no bit of `arg` set outside the operand. R65 lets a host set such bits (they are ignored); an
encoder does not. -/
def Request.wf (r : Request) : Bool :=
  match Request.operandWidth r.hdr with
  | some n => r.arg >>> n == 0#268
  | none => false

end Sys2Proof
end

