-- ==== Sys2Proof/Safety.lean ====
section
/-! DEFINITION. What holds of every state of a sound run: the shape of every response (R68), of every transport
transaction (R40, R41), of a waiting operation (R30), and the constraints on the build (R9). -/

namespace Sys2Proof.Machine

/-- R68, R200: OK and the three data-less errors carry no cfail bit, CHECKSUM_ERROR carries at least one, and BUS_ERROR,
DOMAIN_ERROR and ILLEGAL_OP carry all-zero data. -/
def Response.Legal (r : Response) : Prop :=
  match r.status with
  | .ok => r.cfail = 0#4
  | .checksumError => r.cfail ≠ 0#4
  | .busError => r.cfail = 0#4 ∧ r.data = 0#268
  | .domainError => r.cfail = 0#4 ∧ r.data = 0#268
  | .illegalOp => r.cfail = 0#4 ∧ r.data = 0#268

/-- R40, R41: a read of 4 bytes at a channel's high register or of 16 bytes at `CH_BASE`; never a write. -/
def Transaction.Legal (b : Build) (t : Transaction) : Prop :=
  (∃ c : Channel, t = .readBytes (channelOffset b c) 4#16) ∨ t = .readBytes b.chBase 16#16

/-- R30: only READ_CH and READ_FRAME wait on the transport. -/
def waitsOnTransport : Instr → Prop
  | .readCh _ => True
  | .readFrame => True
  | .rdCtrl | .wrCtrl _ | .decodeCh _ | .decodeFrame _ | .validate _ | .lux _ | .chroma _ | .cct _ => False

/-- R69: how many low bits of `data` an operation's result occupies. -/
def resultWidth : Instr → Nat
  | .rdCtrl => 8
  | .wrCtrl _ => 0
  | .decodeCh _ => 67
  | .decodeFrame _ => 268
  | .validate _ => 5
  | .lux _ => 64
  | .chroma _ => 128
  | .cct _ => 64
  | .readCh _ => 67
  | .readFrame => 268

/-- R202: the statuses an operation may answer with, in a state whose `CSUM_EN` is `enabled`. -/
def allowedStatus (enabled : Bool) : Instr → Status → Prop
  | .rdCtrl, st => st = .ok
  | .wrCtrl _, st => st = .ok
  | .decodeCh _, st => st = .ok
  | .decodeFrame _, st => st = .ok
  | .validate _, st => st = .ok
  | .lux _, st => st = .ok
  | .chroma _, st => st = .ok ∨ st = .domainError
  | .cct _, st => st = .ok ∨ st = .domainError
  | .readCh _, st => st = .ok ∨ st = .busError ∨ (st = .checksumError ∧ enabled = true)
  | .readFrame, st => st = .ok ∨ st = .busError ∨ (st = .checksumError ∧ enabled = true)

/-- Neither a number nor an infinity: a full exponent field and a fraction that is not zero. -/
def isNaN (a : F64) : Bool := expField a == 2047 && fracField a != 0

/-- A full exponent field and a zero fraction. -/
def isInfinite (a : F64) : Bool := expField a == 2047 && fracField a == 0

/-- R131: `r` is the binary64 nearest to `num / den` units of 2^-1074 (`den` may be negative), and has an even
significand when another finite number is equally near. -/
def NearestEven (r : F64) (num den : Int) : Prop :=
  ∀ c : F64, isFinite c = true →
    (num - fpUnits r * den).natAbs ≤ (num - fpUnits c * den).natAbs ∧
    ((num - fpUnits c * den).natAbs = (num - fpUnits r * den).natAbs → fpUnits c = fpUnits r ∨ r.getLsbD 0 = false)

/-- R131: the result of an operation whose exact result is `num / den` units. It is the nearest finite number, unless
the exact magnitude reaches the midpoint between the largest finite number and 2^1024, where it is an infinity of the
exact result's sign. -/
def RoundedOnce (r : F64) (num den : Int) : Prop :=
  if (2 ^ 54 - 1) * 2 ^ 2044 * den.natAbs ≤ num.natAbs then r = withSign (decide (num * den < 0)) infBits
  else isFinite r = true ∧ NearestEven r num den

/-- The invariant. -/
structure State.Inv (s : State) : Prop where
  build_wf : s.build.wf = true
  responses_legal : ∀ r ∈ s.responses, r.Legal
  transactions_legal : ∀ t ∈ s.transactions, Transaction.Legal s.build t
  busy_reads : ∀ i, s.busy = some i → waitsOnTransport i

end Sys2Proof.Machine
end

