-- ==== Sys2Proof/Certificates/Slice0/Obligations.lean ====
section
/-! DEFINITION. The statements for the provers, each from the rules of spec/ its docstring names. A statement about every state holds in
states no run reaches too; a clause that is the model's own choice names its log entry. -/

open Sys2Proof Sys2Proof.Machine

/-- R71, over the rows of R70. -/
def Obligations.OpcodePatternsSelectOneOperation : Prop :=
  (∀ (r : Request) (row : OpcodeRow), row ∈ opcodeTable → r.hdr &&& row.mask = row.pattern → decode r = .ok (row.operation r)) ∧
  (∀ r : Request, (∀ row ∈ opcodeTable, r.hdr &&& row.mask ≠ row.pattern) → ∃ e, decode r = .error e) ∧
  opcodeTable.Pairwise (fun a b => ∀ hdr : Byte, ¬(hdr &&& a.mask = a.pattern ∧ hdr &&& b.mask = b.pattern))

/-- R73. -/
def Obligations.IllegalHeadersAnswerIllegalOp : Prop :=
  ∀ r : Request,
    (9 < (r.hdr.extractLsb' 4 4).toNat ∨ r.hdr.extractLsb' 2 2 ≠ 0#2 ∨
        (r.hdr.extractLsb' 0 2 ≠ 0#2 ∧ r.hdr.extractLsb' 4 4 ≠ 8#4) →
      ∀ (s : State) (rest : List PortEvent), s.busy = none → s.inbox = .request r :: rest →
        step s = .next { s with inbox := rest, responses := s.responses ++ [⟨.illegalOp, 0#4, 0#268⟩] }) ∧
    (¬(9 < (r.hdr.extractLsb' 4 4).toNat ∨ r.hdr.extractLsb' 2 2 ≠ 0#2 ∨
        (r.hdr.extractLsb' 0 2 ≠ 0#2 ∧ r.hdr.extractLsb' 4 4 ≠ 8#4)) →
      ∃ i, decode r = .ok i)

/-- Sanity: words of R70 and of 95_test_vectors.md, numbered as opcode_table.json numbers them. -/
def Obligations.WrittenOutRequestsDecode : Prop :=
  decodeTableWord 8 0x00 = some .rdCtrl ∧
  decodeTableWord 16 0x0110 = some (.wrCtrl 0x01#8) ∧
  decodeTableWord 40 0x674523B120 = some (.decodeCh ⟨0xB1#8, 0x23#8, 0x45#8, 0x67#8⟩) ∧
  decodeTableWord 136 0x9A204E209DE02E009250C30099204E0030 =
    some (.decodeFrame ⟨⟨0x00#8, 0x4E#8, 0x20#8, 0x99#8⟩, ⟨0x00#8, 0xC3#8, 0x50#8, 0x92#8⟩,
      ⟨0x00#8, 0x2E#8, 0xE0#8, 0x9D#8⟩, ⟨0x20#8, 0x4E#8, 0x20#8, 0x9A#8⟩⟩) ∧
  decodeTableWord 80 0x0000100001000000040 = some (.validate ⟨65536#35, 0x10000#20, 0#4, 0#4, 0#4⟩) ∧
  (∃ f : QuadChannelFrame,
    f = ⟨⟨20000#35, 0x04E20#20, 0#4, 9#4, 9#4⟩, ⟨50000#35, 0x0C350#20, 0#4, 9#4, 2#4⟩,
      ⟨12000#35, 0x02EE0#20, 0#4, 9#4, 13#4⟩, ⟨80000#35, 0x04E20#20, 2#4, 9#4, 10#4⟩⟩ ∧
    decodeTableWord 276 0x00002710009C4053400000BB800BB80274000061A8061A8049000004E2004E2009950 = some (.lux f) ∧
    decodeTableWord 276 0x00002710009C4053400000BB800BB80274000061A8061A8049000004E2004E2009960 = some (.chroma f) ∧
    decodeTableWord 276 0x00002710009C4053400000BB800BB80274000061A8061A8049000004E2004E2009970 = some (.cct f)) ∧
  decodeTableWord 8 0x83 = some (.readCh 3#2) ∧
  decodeTableWord 8 0x90 = some .readFrame ∧
  decodeTableWord 8 0x84 = none ∧ decodeTableWord 8 0x21 = none ∧
  decodeTableWord 8 0x91 = none ∧ decodeTableWord 8 0xA0 = none ∧
  ((List.range 256).filter (fun w => (decodeTableWord 8 w).isSome)).length = 13

/-- Decode and encode agree, over R70 with the packings of R66 and R67. -/
def Obligations.EncodedOperationsDecodeBack : Prop :=
  ∀ i : Instr, decode (encode i) = .ok i

/-- The other direction: each such request has one meaning. -/
def Obligations.DecodedRequestsEncodeBack : Prop :=
  ∀ r : Request, r.wf = true → ∃ i, decode r = .ok i ∧ encode i = r

/-- R65, last sentence: "Bits of `arg` the operation's operand does not occupy are ignored." -/
def Obligations.ArgBitsOutsideTheOperandAreIgnored : Prop :=
  ∀ (hdr : Byte) (a b : PortBits) (n : Nat), Request.operandWidth hdr = some n →
    (∀ k < n, a.getLsbD k = b.getLsbD k) → decode ⟨hdr, a⟩ = decode ⟨hdr, b⟩

/-- R66 and R67. RAW4 and RAW16 are read from the low bits of `arg`; the binary64 results are placed by R69. -/
def Obligations.PackingsFollowTheTables : Prop :=
  (∀ x : ChannelSample, x.pack.extractLsb' 32 35 = x.code ∧ x.pack.extractLsb' 12 20 = x.mantissa ∧
    x.pack.extractLsb' 8 4 = x.exponent ∧ x.pack.extractLsb' 4 4 = x.sampleCounter ∧ x.pack.extractLsb' 0 4 = x.checksum) ∧
  (∀ f : QuadChannelFrame, f.pack.extractLsb' 0 67 = f.ch0.pack ∧ f.pack.extractLsb' 67 67 = f.ch1.pack ∧
    f.pack.extractLsb' 134 67 = f.ch2.pack ∧ f.pack.extractLsb' 201 67 = f.ch3.pack) ∧
  (∀ r : Raw4, r.pack.extractLsb' 0 8 = r.b0 ∧ r.pack.extractLsb' 8 8 = r.b1 ∧ r.pack.extractLsb' 16 8 = r.b2 ∧
    r.pack.extractLsb' 24 8 = r.b3) ∧
  (∀ r : Raw16, r.pack.extractLsb' 0 32 = r.ch0.pack ∧ r.pack.extractLsb' 32 32 = r.ch1.pack ∧
    r.pack.extractLsb' 64 32 = r.ch2.pack ∧ r.pack.extractLsb' 96 32 = r.ch3.pack) ∧
  (∀ arg : PortBits, (∃ r, decode ⟨0x20#8, arg⟩ = .ok (.decodeCh r) ∧ r.pack = arg.extractLsb' 0 32) ∧
    (∃ r, decode ⟨0x30#8, arg⟩ = .ok (.decodeFrame r) ∧ r.pack = arg.extractLsb' 0 128)) ∧
  (∀ x y : F64, (f64Data x).extractLsb' 0 64 = x ∧ (chromaData x y).extractLsb' 0 64 = x ∧
    (chromaData x y).extractLsb' 64 64 = y)

/-- R190. The reset example holds with R231: CSUM_EN is then 0. -/
def Obligations.RdCtrlRespondsWithCtrl : Prop :=
  (∀ arg : PortBits, decode ⟨0x00#8, arg⟩ = .ok .rdCtrl) ∧
  ∀ s : State,
    exec .rdCtrl s = .next { s with responses := s.responses ++ [⟨.ok, 0#4, if s.csumEn then 1#268 else 0#268⟩] }

/-- R191, with the next operation seeing the new value. -/
def Obligations.WrCtrlTakesBitZero : Prop :=
  (∀ arg : PortBits, decode ⟨0x10#8, arg⟩ = .ok (.wrCtrl (arg.extractLsb' 0 8))) ∧
  ∀ (v : Byte) (s : State), ∃ t : State,
    t = { s with csumEn := v.getLsbD 0, responses := s.responses ++ [⟨.ok, 0#4, 0#268⟩] } ∧
    exec (.wrCtrl v) s = .next t ∧
    exec .rdCtrl t = .next { t with responses := t.responses ++ [⟨.ok, 0#4, if v.getLsbD 0 then 1#268 else 0#268⟩] }

/-- R25: "It is written by `WR_CTRL` and by reset and by nothing else; in particular no error changes it." -/
def Obligations.OnlyWrCtrlAndResetChangeTheFlag : Prop :=
  ∀ s t : State, step s = .next t → t.csumEn ≠ s.csumEn →
    (∃ rest, s.inbox = .reset :: rest ∧ t.csumEn = false) ∨
    (s.busy = none ∧ ∃ r rest v, s.inbox = .request r :: rest ∧ decode r = .ok (.wrCtrl v) ∧ t.csumEn = v.getLsbD 0)

/-- R95 with R90 (the field cut), R91, R92, R93. -/
def Obligations.DecodeChReturnsTheFields : Prop :=
  (∀ arg : PortBits, decode ⟨0x20#8, arg⟩ =
    .ok (.decodeCh ⟨arg.extractLsb' 0 8, arg.extractLsb' 8 8, arg.extractLsb' 16 8, arg.extractLsb' 24 8⟩)) ∧
  ∀ (b0 b1 b2 b3 : Byte) (s : State), ∃ d : PortBits,
    exec (.decodeCh ⟨b0, b1, b2, b3⟩) s = .next { s with responses := s.responses ++ [⟨.ok, 0#4, d⟩] } ∧
    (s.build.byteOrder = .big →
      d.extractLsb' 8 4 = b0.extractLsb' 4 4 ∧ d.extractLsb' 12 20 = b0.extractLsb' 0 4 ++ b1 ++ b2 ∧
      d.extractLsb' 4 4 = b3.extractLsb' 4 4 ∧ d.extractLsb' 0 4 = b3.extractLsb' 0 4) ∧
    (s.build.byteOrder = .little →
      d.extractLsb' 8 4 = b1.extractLsb' 4 4 ∧ d.extractLsb' 12 20 = b1.extractLsb' 0 4 ++ b0 ++ b3 ∧
      d.extractLsb' 4 4 = b2.extractLsb' 4 4 ∧ d.extractLsb' 0 4 = b2.extractLsb' 0 4) ∧
    (d.extractLsb' 32 35).toNat = (d.extractLsb' 12 20).toNat * 2 ^ (d.extractLsb' 8 4).toNat ∧
    d.extractLsb' 67 201 = 0#201

/-- R96; the frame is compared with DECODE_CH itself, which DecodeChReturnsTheFields states. -/
def Obligations.DecodeFrameIsFourDecodings : Prop :=
  (∀ arg : PortBits, decode ⟨0x30#8, arg⟩ =
    .ok (.decodeFrame ⟨Raw4.unpack (arg.extractLsb' 0 32), Raw4.unpack (arg.extractLsb' 32 32),
      Raw4.unpack (arg.extractLsb' 64 32), Raw4.unpack (arg.extractLsb' 96 32)⟩)) ∧
  ∀ (r0 r1 r2 r3 : Raw4) (s : State), ∃ d d0 d1 d2 d3 : PortBits,
    exec (.decodeFrame ⟨r0, r1, r2, r3⟩) s = .next { s with responses := s.responses ++ [⟨.ok, 0#4, d⟩] } ∧
    exec (.decodeCh r0) s = .next { s with responses := s.responses ++ [⟨.ok, 0#4, d0⟩] } ∧
    exec (.decodeCh r1) s = .next { s with responses := s.responses ++ [⟨.ok, 0#4, d1⟩] } ∧
    exec (.decodeCh r2) s = .next { s with responses := s.responses ++ [⟨.ok, 0#4, d2⟩] } ∧
    exec (.decodeCh r3) s = .next { s with responses := s.responses ++ [⟨.ok, 0#4, d3⟩] } ∧
    d.extractLsb' 0 67 = d0.extractLsb' 0 67 ∧ d.extractLsb' 67 67 = d1.extractLsb' 0 67 ∧
    d.extractLsb' 134 67 = d2.extractLsb' 0 67 ∧ d.extractLsb' 201 67 = d3.extractLsb' 0 67

/-- R98's scaling law, quoted there from the source. -/
def Obligations.CodeScalingLaw : Prop :=
  (∀ (m : Mantissa) (e1 e2 : Nibble), e1.toNat < e2.toNat →
    (codeOf m e2).toNat = (codeOf m e1).toNat <<< (e2.toNat - e1.toNat)) ∧
  (codeOf 0xFFFFF#20 15#4).toNat = 34359705600

/-- R42 (with R43: the registers stay in place). -/
def Obligations.LittleEndianSwapsBytesInsideRegisters : Prop :=
  (∀ a b : Byte, registerOf .big a b = a ++ b ∧ registerOf .little a b = b ++ a) ∧
  (∀ b0 b1 b2 b3 : Byte, decodeSample .little ⟨b0, b1, b2, b3⟩ = decodeSample .big ⟨b1, b0, b3, b2⟩) ∧
  (∀ s t : State, step s = .next t → t.build.byteOrder = s.build.byteOrder)

/-- R11: "`parity(v)` is the exclusive-or of all bits of `v` (1 when an odd number of bits are set)." -/
def Obligations.ParityIsOneForAnOddNumberOfBits : Prop :=
  ∀ (w : Nat) (v : BitVec w), parity v = decide ((List.range w).countP (fun i => v.getLsbD i) % 2 = 1)

/-- R116 with R110 to R115. -/
def Obligations.ValidateReportsTheComputedChecksum : Prop :=
  (∀ arg : PortBits, decode ⟨0x40#8, arg⟩ =
    .ok (.validate ⟨arg.extractLsb' 32 35, arg.extractLsb' 12 20, arg.extractLsb' 8 4, arg.extractLsb' 4 4, arg.extractLsb' 0 4⟩)) ∧
  ∀ (code : Code) (m : Mantissa) (e cnt k : Nibble) (s : State), ∃ d : PortBits,
    exec (.validate ⟨code, m, e, cnt, k⟩) s = .next { s with responses := s.responses ++ [⟨.ok, 0#4, d⟩] } ∧
    (∀ V : ParityVector, V = e ++ m ++ (if s.build.csumSource = .counter then cnt else k) →
      d.getLsbD 1 = parity (V &&& s.build.csumMap.row0) ∧ d.getLsbD 2 = parity (V &&& s.build.csumMap.row1) ∧
      d.getLsbD 3 = parity (V &&& s.build.csumMap.row2) ∧ d.getLsbD 4 = parity (V &&& s.build.csumMap.row3)) ∧
    d.getLsbD 0 = decide (d.extractLsb' 1 4 = k) ∧ d.extractLsb' 5 263 = 0#263 ∧
    (∀ code' : Code, exec (.validate ⟨code', m, e, cnt, k⟩) s = exec (.validate ⟨code, m, e, cnt, k⟩) s)

/-- R118, for every CSUM_MAP that R9 allows. Under CHECKSUM a flip of the third field is a flip of the transmitted checksum, which R118 holds fixed. -/
def Obligations.SingleBitFlipsAreDetected : Prop :=
  ∀ (b : Build) (x : ChannelSample), b.csumRowFull = true → (checksumOk b x).1 = true →
    (∀ i < 20, (checksumOk b { x with mantissa := x.mantissa ^^^ BitVec.twoPow 20 i }).1 = false) ∧
    (∀ i < 4, (checksumOk b { x with exponent := x.exponent ^^^ BitVec.twoPow 4 i }).1 = false) ∧
    (b.csumSource = .counter → ∀ i < 4,
      (checksumOk b { x with sampleCounter := x.sampleCounter ^^^ BitVec.twoPow 4 i }).1 = false ∧
      (checksumOk b { x with checksum := x.checksum ^^^ BitVec.twoPow 4 i }).1 = false) ∧
    (b.csumSource = .checksum →
      (∀ i < 4, 1 ≤ i → (checksumOk b { x with checksum := x.checksum ^^^ BitVec.twoPow 4 i }).1 = false) ∧
      (checksumOk b { x with checksum := x.checksum ^^^ BitVec.twoPow 4 0 }).1 =
        (!b.csumMap.row1.getLsbD 0 && !b.csumMap.row2.getLsbD 0 && !b.csumMap.row3.getLsbD 0) ∧
      ∀ cnt : Nibble, checksumOk b { x with sampleCounter := cnt } = checksumOk b x)

/-- The table of R118; the default map is the spec's general knowledge (log 3). -/
def Obligations.DefaultMapToggleClasses : Prop :=
  ∀ (v : ParityVector), ∀ i < 28,
    computedChecksum defaultCsumMap (v ^^^ BitVec.twoPow 28 i) =
      computedChecksum defaultCsumMap v ^^^
        (if i % 2 = 0 then 0b0001#4 else if i % 4 = 1 then 0b0011#4
          else if i = 7 ∨ i = 15 ∨ i = 23 then 0b1111#4 else 0b0111#4)

/-- R136. -/
def Obligations.LuxIsOneProduct : Prop :=
  (∀ arg : PortBits, decode ⟨0x50#8, arg⟩ = .ok (.lux (QuadChannelFrame.unpack arg))) ∧
  ∀ (f : QuadChannelFrame) (s : State),
    exec (.lux f) s = .next { s with responses := s.responses ++
      [⟨.ok, 0#4, (fmul (u2f f.ch1.code.toNat) (calEntry s.build.cal s.build.luxRow s.build.luxCol)).setWidth 268⟩] } ∧
    (s.build.wf = true →
      isFinite (fmul (u2f f.ch1.code.toNat) (calEntry s.build.cal s.build.luxRow s.build.luxCol)) = true ∧
      (f.ch1.code = 0#35 → fmul (u2f f.ch1.code.toNat) (calEntry s.build.cal s.build.luxRow s.build.luxCol) =
        if (calEntry s.build.cal s.build.luxRow s.build.luxCol).getLsbD 63 then 0x8000000000000000#64 else 0#64))

/-- R139 with R137 and R138. -/
def Obligations.ChromaIsTheQuotients : Prop :=
  (∀ arg : PortBits, decode ⟨0x60#8, arg⟩ = .ok (.chroma (QuadChannelFrame.unpack arg))) ∧
  ∀ (f : QuadChannelFrame) (s : State)
    (T0 : F64) (T1 : F64) (T2 : F64) (S : F64),
    T0 = fadd (fadd (fmul (u2f f.ch0.code.toNat) (calEntry s.build.cal 0#2 0#2))
      (fmul (u2f f.ch1.code.toNat) (calEntry s.build.cal 1#2 0#2))) (fmul (u2f f.ch2.code.toNat) (calEntry s.build.cal 2#2 0#2)) →
    T1 = fadd (fadd (fmul (u2f f.ch0.code.toNat) (calEntry s.build.cal 0#2 1#2))
      (fmul (u2f f.ch1.code.toNat) (calEntry s.build.cal 1#2 1#2))) (fmul (u2f f.ch2.code.toNat) (calEntry s.build.cal 2#2 1#2)) →
    T2 = fadd (fadd (fmul (u2f f.ch0.code.toNat) (calEntry s.build.cal 0#2 2#2))
      (fmul (u2f f.ch1.code.toNat) (calEntry s.build.cal 1#2 2#2))) (fmul (u2f f.ch2.code.toNat) (calEntry s.build.cal 2#2 2#2)) →
    S = fadd (fadd T0 T1) T2 →
    exec (.chroma f) s = .next { s with responses := s.responses ++
      [if feq S 0#64 = true ∨ isFinite (fdiv T0 S) = false ∨ isFinite (fdiv T1 S) = false then ⟨.domainError, 0#4, 0#268⟩
        else ⟨.ok, 0#4, (fdiv T1 S ++ fdiv T0 S).setWidth 268⟩] }

/-- R142 with R138, R140 and R141. -/
def Obligations.CctIsMcCamysPolynomial : Prop :=
  (∀ arg : PortBits, decode ⟨0x70#8, arg⟩ = .ok (.cct (QuadChannelFrame.unpack arg))) ∧
  ∀ (f : QuadChannelFrame) (s : State)
    (T0 : F64) (T1 : F64) (T2 : F64) (S : F64) (x : F64) (y : F64) (n : F64) (cct : F64),
    T0 = fadd (fadd (fmul (u2f f.ch0.code.toNat) (calEntry s.build.cal 0#2 0#2))
      (fmul (u2f f.ch1.code.toNat) (calEntry s.build.cal 1#2 0#2))) (fmul (u2f f.ch2.code.toNat) (calEntry s.build.cal 2#2 0#2)) →
    T1 = fadd (fadd (fmul (u2f f.ch0.code.toNat) (calEntry s.build.cal 0#2 1#2))
      (fmul (u2f f.ch1.code.toNat) (calEntry s.build.cal 1#2 1#2))) (fmul (u2f f.ch2.code.toNat) (calEntry s.build.cal 2#2 1#2)) →
    T2 = fadd (fadd (fmul (u2f f.ch0.code.toNat) (calEntry s.build.cal 0#2 2#2))
      (fmul (u2f f.ch1.code.toNat) (calEntry s.build.cal 1#2 2#2))) (fmul (u2f f.ch2.code.toNat) (calEntry s.build.cal 2#2 2#2)) →
    S = fadd (fadd T0 T1) T2 →
    x = fdiv T0 S → y = fdiv T1 S →
    n = fdiv (fsub x 0x3FD53F7CED916873#64) (fsub 0x3FC7C84B5DCC63F1#64 y) →
    cct = fadd (fadd (fadd (fmul 0x407B500000000000#64 (fmul (fmul n n) n)) (fmul 0x40AC220000000000#64 (fmul n n)))
      (fmul 0x40BACD0000000000#64 n)) 0x40B58D0000000000#64 →
    exec (.cct f) s = .next { s with responses := s.responses ++
      [if feq S 0#64 = true ∨ isFinite x = false ∨ isFinite y = false ∨ feq y 0x3FC7C84B5DCC63F1#64 = true ∨ isFinite cct = false
        then ⟨.domainError, 0#4, 0#268⟩ else ⟨.ok, 0#4, cct.setWidth 268⟩] }

/-- R206 item 4 and R142: the order, observable in the cause the model records and no response shows (log 16). -/
def Obligations.DomainTestsAreMadeInOrder : Prop :=
  ∀ (m : Cal) (f : QuadChannelFrame),
    (feq (tristimulusSum (xyz m f)) 0#64 = true → chroma m f = .error .zeroSum ∧ cctOf m f = .error .zeroSum) ∧
    (feq (tristimulusSum (xyz m f)) 0#64 = false →
      ((isFinite (fdiv (xyz m f).X (tristimulusSum (xyz m f))) = false ∨
          isFinite (fdiv (xyz m f).Y (tristimulusSum (xyz m f))) = false) →
        chroma m f = .error .nonFiniteQuotient ∧ cctOf m f = .error .nonFiniteQuotient) ∧
      (isFinite (fdiv (xyz m f).X (tristimulusSum (xyz m f))) = true →
        isFinite (fdiv (xyz m f).Y (tristimulusSum (xyz m f))) = true →
        ∃ c, chroma m f = .ok c ∧ cctOf m f = mccamy c)) ∧
    (∀ c : Chromaticity, (feq c.y kY = true → mccamy c = .error .yEqualsKY) ∧
      (feq c.y kY = false → isFinite (mccamyPolynomial (mccamyN c)) = false → mccamy c = .error .nonFinitePolynomial) ∧
      (feq c.y kY = false → isFinite (mccamyPolynomial (mccamyN c)) = true →
        mccamy c = .ok (mccamyPolynomial (mccamyN c))))

/-- R146. -/
def Obligations.CctFailsWheneverChromaFails : Prop :=
  ∀ (f : QuadChannelFrame) (s : State),
    exec (.chroma f) s = .next { s with responses := s.responses ++ [⟨.domainError, 0#4, 0#268⟩] } →
    exec (.cct f) s = .next { s with responses := s.responses ++ [⟨.domainError, 0#4, 0#268⟩] }

/-- R145. For LUX this is a bound on the rounding of a product of a 35-bit code and a coefficient below 2^900. -/
def Obligations.ColorimetryNeverReturnsNonFinite : Prop :=
  ∀ (f : QuadChannelFrame) (s : State), s.build.wf = true →
    (∃ a : F64, isFinite a = true ∧
      exec (.lux f) s = .next { s with responses := s.responses ++ [⟨.ok, 0#4, a.setWidth 268⟩] }) ∧
    (exec (.chroma f) s = .next { s with responses := s.responses ++ [⟨.domainError, 0#4, 0#268⟩] } ∨
      ∃ x y : F64, isFinite x = true ∧ isFinite y = true ∧
        exec (.chroma f) s = .next { s with responses := s.responses ++ [⟨.ok, 0#4, (y ++ x).setWidth 268⟩] }) ∧
    (exec (.cct f) s = .next { s with responses := s.responses ++ [⟨.domainError, 0#4, 0#268⟩] } ∨
      ∃ a : F64, isFinite a = true ∧
        exec (.cct f) s = .next { s with responses := s.responses ++ [⟨.ok, 0#4, a.setWidth 268⟩] })

/-- R137: "With the constraint of `00_scope.md` rule R9, `X`, `Y`, `Z` are always finite". -/
def Obligations.TristimulusValuesAreFinite : Prop :=
  ∀ (m : Cal) (f : QuadChannelFrame), m.bounded = true →
    isFinite (xyz m f).X = true ∧ isFinite (xyz m f).Y = true ∧ isFinite (xyz m f).Z = true

/-- The corner cases of R139 and R142. -/
def Obligations.DarkFramesAreDomainErrors : Prop :=
  ∀ (f : QuadChannelFrame) (s : State), s.build.wf = true →
    f.ch0.code = 0#35 → f.ch1.code = 0#35 → f.ch2.code = 0#35 →
    exec (.chroma f) s = .next { s with responses := s.responses ++ [⟨.domainError, 0#4, 0#268⟩] } ∧
    exec (.cct f) s = .next { s with responses := s.responses ++ [⟨.domainError, 0#4, 0#268⟩] }

/-- R135. -/
def Obligations.OnlyTheNamedCodesMatter : Prop :=
  ∀ (f g : QuadChannelFrame) (s : State), f.ch1.code = g.ch1.code →
    exec (.lux f) s = exec (.lux g) s ∧
    (f.ch0.code = g.ch0.code → f.ch2.code = g.ch2.code →
      exec (.chroma f) s = exec (.chroma g) s ∧ exec (.cct f) s = exec (.cct g) s)

/-- R132, "exact for every `code`", which the spec marks as its own inference, and R13, which asks it below 2^53; the unit is 2^-1074. -/
def Obligations.CodeConversionIsExact : Prop :=
  (∀ n < 2 ^ 53, isFinite (u2f n) = true ∧ (u2f n).getLsbD 63 = false ∧ fpUnits (u2f n) = (n : Int) * 2 ^ 1074) ∧
  (∀ code : Code, isFinite (u2f code.toNat) = true ∧ (u2f code.toNat).getLsbD 63 = false ∧
    fpUnits (u2f code.toNat) = (code.toNat : Int) * 2 ^ 1074) ∧
  u2f 0 = 0#64

/-- R131, for fadd and fsub: "each correctly rounded once with round to nearest, ties to even". -/
def Obligations.AdditionAndSubtractionRoundOnce : Prop :=
  ∀ a b : F64, isFinite a = true → isFinite b = true →
    RoundedOnce (fadd a b) (fpUnits a + fpUnits b) 1 ∧ RoundedOnce (fsub a b) (fpUnits a - fpUnits b) 1

/-- R131, for fmul and fdiv; the unit is 2^-1074. -/
def Obligations.MultiplicationAndDivisionRoundOnce : Prop :=
  ∀ a b : F64, isFinite a = true → isFinite b = true →
    RoundedOnce (fmul a b) (fpUnits a * fpUnits b) (2 ^ 1074) ∧
    (fpUnits b ≠ 0 → RoundedOnce (fdiv a b) (fpUnits a * 2 ^ 1074) (fpUnits b))

/-- R145: -0.0 is returned with its sign bit as computed; the rules are those of IEEE 754 (R131). -/
def Obligations.SignsOfFiniteResults : Prop :=
  ∀ a b : F64, isFinite a = true → isFinite b = true →
    (fmul a b).getLsbD 63 = (a.getLsbD 63 ^^ b.getLsbD 63) ∧
    (fpUnits b ≠ 0 → (fdiv a b).getLsbD 63 = (a.getLsbD 63 ^^ b.getLsbD 63)) ∧
    (fpUnits a + fpUnits b = 0 → fadd a b = if a.getLsbD 63 && b.getLsbD 63 then 0x8000000000000000#64 else 0#64) ∧
    (fpUnits a + fpUnits b ≠ 0 → (fadd a b).getLsbD 63 = decide (fpUnits a + fpUnits b < 0))

/-- R13 for feq; R141, which the spec marks as general knowledge (G6): here it is a claim about the model's arithmetic. -/
def Obligations.DifferenceIsZeroOnlyForEqualOperands : Prop :=
  ∀ a b : F64,
    (isFinite a = true → isFinite b = true →
      feq a b = decide (fpUnits a = fpUnits b) ∧ feq (fsub a b) 0#64 = feq a b) ∧
    (isNaN a = true ∨ isNaN b = true → feq a b = false) ∧
    (isNaN a = false → isNaN b = false → isFinite a = false ∨ isFinite b = false → feq a b = decide (a = b))

/-- R140. -/
def Obligations.McCamyConstantsAreTheNearest : Prop :=
  (kX = 0x3FD53F7CED916873#64 ∧ NearestEven kX (3320 * 2 ^ 1074) 10000) ∧
  (kY = 0x3FC7C84B5DCC63F1#64 ∧ NearestEven kY (1858 * 2 ^ 1074) 10000) ∧
  (mccamyA3 = 0x407B500000000000#64 ∧ NearestEven mccamyA3 (437 * 2 ^ 1074) 1) ∧
  (mccamyA2 = 0x40AC220000000000#64 ∧ NearestEven mccamyA2 (3601 * 2 ^ 1074) 1) ∧
  (mccamyA1 = 0x40BACD0000000000#64 ∧ NearestEven mccamyA1 (6861 * 2 ^ 1074) 1) ∧
  (mccamyA0 = 0x40B58D0000000000#64 ∧ NearestEven mccamyA0 (5517 * 2 ^ 1074) 1)

/-- R144. -/
def Obligations.DaylightPointIsNear6500 : Prop :=
  mccamy ⟨0x3FD40346DC5D6388#64, 0x3FD50E5604189375#64⟩ = .ok 0x40B96C2ECC6F2962#64 ∧
  6370 * 2 ^ 1074 ≤ fpUnits 0x40B96C2ECC6F2962#64 ∧ fpUnits 0x40B96C2ECC6F2962#64 ≤ 6630 * 2 ^ 1074

/-- R172 with R40 and R170. The offset modulo 256 outside R9 is the model's choice (log 13). -/
def Obligations.ReadChDecodesTheAnswer : Prop :=
  (∀ (c : Channel) (arg : PortBits), decode ⟨0x80#8 ||| c.setWidth 8, arg⟩ = .ok (.readCh c)) ∧
  ∀ (c : Channel) (s : State) (t : Transaction),
    t = .readBytes (BitVec.ofNat 8 (s.build.chBase.toNat + c.toNat * s.build.chStride)) 4#16 →
    (∀ b0 b1 b2 b3 : Byte, s.nextAnswer t = .ok [b0, b1, b2, b3] →
      exec (.readCh c) s = .next { s with
        transactions := s.transactions ++ [t], answers := s.answers.drop 1,
        responses := s.responses ++
          [if s.csumEn = true ∧ (checksumOk s.build (decodeSample s.build.byteOrder ⟨b0, b1, b2, b3⟩)).1 = false
            then ⟨.checksumError, 1#4 <<< c.toNat, (decodeSample s.build.byteOrder ⟨b0, b1, b2, b3⟩).pack.setWidth 268⟩
            else ⟨.ok, 0#4, (decodeSample s.build.byteOrder ⟨b0, b1, b2, b3⟩).pack.setWidth 268⟩] }) ∧
    ((s.nextAnswer t = .busError ∨ ∃ bytes, s.nextAnswer t = .ok bytes ∧ bytes.length ≠ 4) →
      exec (.readCh c) s = .next { s with
        transactions := s.transactions ++ [t], answers := s.answers.drop 1,
        responses := s.responses ++ [⟨.busError, 0#4, 0#268⟩] })

/-- R175 with R40. -/
def Obligations.ReadFrameDecodesTheAnswer : Prop :=
  (∀ arg : PortBits, decode ⟨0x90#8, arg⟩ = .ok .readFrame) ∧
  ∀ (s : State) (t : Transaction), t = .readBytes s.build.chBase 16#16 →
    (∀ (bytes : List Byte) (f : QuadChannelFrame), s.nextAnswer t = .ok bytes → bytes.length = 16 →
      f = ⟨decodeSample s.build.byteOrder ⟨bytes.getD 0 0#8, bytes.getD 1 0#8, bytes.getD 2 0#8, bytes.getD 3 0#8⟩,
           decodeSample s.build.byteOrder ⟨bytes.getD 4 0#8, bytes.getD 5 0#8, bytes.getD 6 0#8, bytes.getD 7 0#8⟩,
           decodeSample s.build.byteOrder ⟨bytes.getD 8 0#8, bytes.getD 9 0#8, bytes.getD 10 0#8, bytes.getD 11 0#8⟩,
           decodeSample s.build.byteOrder ⟨bytes.getD 12 0#8, bytes.getD 13 0#8, bytes.getD 14 0#8, bytes.getD 15 0#8⟩⟩ →
      ∃ cfail : Nibble,
        (cfail.getLsbD 0 = (s.csumEn && !(checksumOk s.build f.ch0).1) ∧
          cfail.getLsbD 1 = (s.csumEn && !(checksumOk s.build f.ch1).1) ∧
          cfail.getLsbD 2 = (s.csumEn && !(checksumOk s.build f.ch2).1) ∧
          cfail.getLsbD 3 = (s.csumEn && !(checksumOk s.build f.ch3).1)) ∧
        exec .readFrame s = .next { s with
          transactions := s.transactions ++ [t], answers := s.answers.drop 1,
          responses := s.responses ++ [⟨if cfail = 0#4 then .ok else .checksumError, cfail, f.pack⟩] }) ∧
    ((s.nextAnswer t = .busError ∨ ∃ bytes, s.nextAnswer t = .ok bytes ∧ bytes.length ≠ 16) →
      exec .readFrame s = .next { s with
        transactions := s.transactions ++ [t], answers := s.answers.drop 1,
        responses := s.responses ++ [⟨.busError, 0#4, 0#268⟩] })

/-- R46 for the widths, R47 for the single transaction of a frame, R170, R172 and R175 for the offsets. A next state under a silent transport is the model's choice (log 5), the offset modulo 256 outside R9 too (log 13). -/
def Obligations.EachReadIsOneTransaction : Prop :=
  (∀ (c : Channel) (s : State), ∃ t, exec (.readCh c) s = .next t ∧ t.transactions = s.transactions ++
    [.readBytes (BitVec.ofNat 8 (s.build.chBase.toNat + c.toNat * s.build.chStride)) 4#16]) ∧
  (∀ s : State, ∃ t, exec .readFrame s = .next t ∧ t.transactions = s.transactions ++ [.readBytes s.build.chBase 16#16]) ∧
  (∀ (i : Instr) (s t : State), ¬ waitsOnTransport i → exec i s = .next t → t.transactions = s.transactions)

/-- R170: "no wrap: rule R9 bounds it". -/
def Obligations.ReadOffsetsDoNotWrap : Prop :=
  ∀ (b : Build) (c : Channel), b.wf = true →
    (channelOffset b c).toNat = b.chBase.toNat + c.toNat * b.chStride ∧ (channelOffset b c).toNat + 1 ≤ 255

/-- R238. That the wait is a next state with `busy` set is the model's form of it (log 5); the offset modulo 256 outside R9 is the model's choice (log 13). -/
def Obligations.SilentTransportLeavesTheBlockBusy : Prop :=
  (∀ (c : Channel) (s : State) (t : Transaction),
    t = .readBytes (BitVec.ofNat 8 (s.build.chBase.toNat + c.toNat * s.build.chStride)) 4#16 → s.nextAnswer t = .silent →
    exec (.readCh c) s = .next { s with
      transactions := s.transactions ++ [t], answers := s.answers.drop 1, busy := some (.readCh c) }) ∧
  (∀ (s : State) (t : Transaction), t = .readBytes s.build.chBase 16#16 → s.nextAnswer t = .silent →
    exec .readFrame s = .next { s with
      transactions := s.transactions ++ [t], answers := s.answers.drop 1, busy := some .readFrame })

/-- R236, R238: "the block stays busy, and only reset ends it". -/
def Obligations.OnlyResetEndsAWait : Prop :=
  ∀ s t : State, s.busy ≠ none → step s = .next t →
    t.responses = s.responses ∧ t.transactions = s.transactions ∧
    ((∃ rest, s.inbox = .reset :: rest ∧ t.busy = none) ∨ (t.busy = s.busy ∧ t.csumEn = s.csumEn))

/-- R236; that the event is used up is the model's choice (log 7). -/
def Obligations.RequestWhileBusyHasNoEffect : Prop :=
  ∀ (s : State) (r : Request) (rest : List PortEvent), s.busy ≠ none → s.inbox = .request r :: rest →
    step s = .next { s with inbox := rest }

/-- R230, R232. That build, history and environment stay is the model's reading (log 8). -/
def Obligations.ResetClearsTheFlagAndAbandonsTheWait : Prop :=
  (∀ (s : State) (rest : List PortEvent), s.inbox = .reset :: rest →
    step s = .next { s with inbox := rest, csumEn := false, busy := none }) ∧
  (∀ (s t : State) (r : Request) (rest : List PortEvent), s.inbox = .request r :: rest → step s = .next t →
    (s.busy ≠ none → t.busy = s.busy ∧ t.csumEn = s.csumEn) ∧
    ((∀ v, decode r ≠ .ok (.wrCtrl v)) → t.csumEn = s.csumEn))

/-- R231. The build is the default of R8 (log 3), the empty inbox and answers are the model's choice (log 6, log 4). -/
def Obligations.ResetStateIsIdleWithTheFlagOff : Prop :=
  State.reset.csumEn = false ∧ State.reset.ctrl = 0x00#8 ∧ State.reset.busy = none ∧
  State.reset.responses = [] ∧ State.reset.transactions = [] ∧ State.reset.build.wf = true

/-- R203 and R238; that the stuck wait is a named fault is the model's choice (log 5). -/
def Obligations.NothingHappensWithoutAnEvent : Prop :=
  (∀ s : State, s.inbox = [] → s.busy = none → step s = .next s) ∧
  (∀ s : State, s.inbox = [] → s.busy ≠ none → step s = .fault .transportSilent)

/-- The table of R202 with the cfail rule of R68. -/
def Obligations.StatusesByOperation : Prop :=
  ∀ (i : Instr) (s t : State) (r : Response), exec i s = .next t → t.responses = s.responses ++ [r] →
    allowedStatus s.csumEn i r.status ∧ (r.status = .checksumError ↔ r.cfail ≠ 0#4)

/-- R68, last sentence, with the widths of R69. -/
def Obligations.UnusedDataBitsAreZero : Prop :=
  ∀ (i : Instr) (s t : State) (r : Response), exec i s = .next t → t.responses = s.responses ++ [r] →
    r.data >>> resultWidth i = 0#268

/-- R204: "the state after a failed operation equals the state before it". -/
def Obligations.ErrorsLeaveTheStateAsItWas : Prop :=
  ∀ (i : Instr) (s t : State) (r : Response), exec i s = .next t → t.responses = s.responses ++ [r] → r.status ≠ .ok →
    t.csumEn = s.csumEn ∧ t.build = s.build ∧ t.busy = s.busy ∧ t.inbox = s.inbox ∧
    (r.status ≠ .checksumError → r = ⟨r.status, 0#4, 0#268⟩)

/-- R200, the code column. -/
def Obligations.StatusCodesAreTheTables : Prop :=
  statusCode .ok = 0#3 ∧ statusCode .busError = 1#3 ∧ statusCode .checksumError = 2#3 ∧
  statusCode .domainError = 3#3 ∧ statusCode .illegalOp = 4#3 ∧ ∀ st : Status, (statusCode st).toNat < 5

/-- R41, with R40's two shapes and R51's one transaction at a time. -/
def Obligations.NoStepWritesTheSensor : Prop :=
  ∀ s t : State, step s = .next t →
    t.transactions = s.transactions ∨
    (∃ c : Channel, t.transactions = s.transactions ++ [.readBytes (channelOffset s.build c) 4#16]) ∨
    t.transactions = s.transactions ++ [.readBytes s.build.chBase 16#16]

/-- The frame of all ten operations, one statement since each operation's own statement gives its whole next state. -/
def Obligations.FrameOfEveryOperation : Prop :=
  ∀ (i : Instr) (s t : State), exec i s = .next t →
    t.build = s.build ∧ t.inbox = s.inbox ∧
    (∃ rs : List Response, rs.length ≤ 1 ∧ t.responses = s.responses ++ rs) ∧
    ((∀ v, i ≠ .wrCtrl v) → t.csumEn = s.csumEn) ∧
    (¬ waitsOnTransport i → t.busy = s.busy ∧ t.answers = s.answers ∧ t.transactions = s.transactions ∧
      ∃ r, t.responses = s.responses ++ [r])

/-- R242: every operation completes; R238's fairness assumption is the hypothesis. -/
def Obligations.EveryOperationRespondsOnce : Prop :=
  ∀ (i : Instr) (s : State), (waitsOnTransport i → ∀ t : Transaction, s.nextAnswer t ≠ .silent) →
    ∃ (t : State) (r : Response), exec i s = .next t ∧ t.responses = s.responses ++ [r] ∧ t.busy = s.busy

/-- R20: two identical requests give identical responses whatever was executed between them. -/
def Obligations.PureOperationsIgnoreHistory : Prop :=
  ∀ (i : Instr) (b : Build), i ≠ .rdCtrl → (∀ v, i ≠ .wrCtrl v) → ¬ waitsOnTransport i →
    ∃ r : Response, ∀ s : State, s.build = b → exec i s = .next { s with responses := s.responses ++ [r] }

/-- R88, assembled as R14's DerivedColor (log 12). -/
def Obligations.DeriveAssemblesTheDerivedColor : Prop :=
  (∀ f : QuadChannelFrame, deriveOperations f = [.lux f, .chroma f, .cct f]) ∧
  ∀ (f : QuadChannelFrame) (d : DerivedColor) (s : State), derivedColor s.build f = .ok d →
    ∃ t1 t2 t3 : State, exec (.lux f) s = .next t1 ∧ exec (.chroma f) t1 = .next t2 ∧ exec (.cct f) t2 = .next t3 ∧
      t3 = { s with responses := s.responses ++
        [⟨.ok, 0#4, d.lux.setWidth 268⟩, ⟨.ok, 0#4, (d.y ++ d.x).setWidth 268⟩, ⟨.ok, 0#4, d.cct.setWidth 268⟩] }

/-- The step around exec; every per-operation statement reaches a run through it. One request is one step by the model's choice (log 1); the second clause is the model's own: withFetchWord stands for the host's request, and makes a busy block idle without a reset (log 6). -/
def Obligations.StepRunsTheDecodedOperation : Prop :=
  (∀ (s : State) (r : Request) (rest : List PortEvent) (i : Instr),
    s.busy = none → s.inbox = .request r :: rest → decode r = .ok i → step s = exec i { s with inbox := rest }) ∧
  (∀ (s : State) (nbits w : Nat) (i : Instr), decodeTableWord nbits w = some i →
    step (s.withFetchWord nbits w) = exec i { s with busy := none })

/-- The machine's invariant. -/
def Obligations.EveryStepKeepsTheInvariant : Prop :=
  ∀ s t : State, s.Inv → step s = .next t → t.Inv

/-- The invariant's base. The build is the default of R8 (log 3). -/
def Obligations.ResetMeetsTheInvariant : Prop :=
  State.reset.Inv

/-- R243: the observable history is the list of responses and of transactions in order. -/
def Obligations.HistoryOnlyGrows : Prop :=
  ∀ s t : State, step s = .next t → t.build = s.build ∧
    (∃ rs : List Response, rs.length ≤ 1 ∧ t.responses = s.responses ++ rs) ∧
    (∃ ts : List Transaction, ts.length ≤ 1 ∧ t.transactions = s.transactions ++ ts)

/-- R131, "the IEEE 754 binary64 operations"; the spec does not spell these cases out and R145 asks no NaN rule. No claim on the NaN pattern (log 11). -/
def Obligations.SpecialOperandsFollowIeee : Prop :=
  ∀ a b : F64,
    (isNaN a = true ∨ isNaN b = true →
      isNaN (fadd a b) = true ∧ isNaN (fsub a b) = true ∧ isNaN (fmul a b) = true ∧ isNaN (fdiv a b) = true) ∧
    (isInfinite a = true → isInfinite b = true →
      (if a.getLsbD 63 = b.getLsbD 63 then fadd a b = a ∧ isNaN (fsub a b) = true else isNaN (fadd a b) = true ∧ fsub a b = a) ∧
      fmul a b = withSign (a.getLsbD 63 ^^ b.getLsbD 63) infBits ∧ isNaN (fdiv a b) = true) ∧
    (isInfinite a = true → isFinite b = true →
      fadd a b = a ∧ fadd b a = a ∧ fsub a b = a ∧ fsub b a = fneg a ∧
      (if fpUnits b = 0 then isNaN (fmul a b) = true ∧ isNaN (fmul b a) = true
        else fmul a b = withSign (a.getLsbD 63 ^^ b.getLsbD 63) infBits ∧ fmul b a = withSign (a.getLsbD 63 ^^ b.getLsbD 63) infBits) ∧
      fdiv a b = withSign (a.getLsbD 63 ^^ b.getLsbD 63) infBits ∧ fdiv b a = withSign (a.getLsbD 63 ^^ b.getLsbD 63) 0) ∧
    (isFinite a = true → isFinite b = true → fpUnits b = 0 →
      if fpUnits a = 0 then isNaN (fdiv a b) = true else fdiv a b = withSign (a.getLsbD 63 ^^ b.getLsbD 63) infBits)
end

