-- ==== Sys2Proof/Laws/Colorimetry.lean ====
section
/-! SUPPORT. What the Colorimetry Engine answers, each function once. -/

namespace Sys2Proof.Machine

/-- R138, R139: the response to given tristimulus values. -/
theorem chromaResponse_chromaOf (t : Tristimulus) :
    chromaResponse (chromaOf t) =
      if feq (tristimulusSum t) 0#64 = true ∨ isFinite (fdiv t.X (tristimulusSum t)) = false ∨
          isFinite (fdiv t.Y (tristimulusSum t)) = false then ⟨.domainError, 0#4, 0#268⟩
      else ⟨.ok, 0#4, (fdiv t.Y (tristimulusSum t) ++ fdiv t.X (tristimulusSum t)).setWidth 268⟩ := by
  simp only [chromaOf]
  generalize fdiv t.X (tristimulusSum t) = x
  generalize fdiv t.Y (tristimulusSum t) = y
  generalize feq (tristimulusSum t) 0#64 = zero
  cases zero <;> cases hx : isFinite x <;> cases hy : isFinite y <;>
    simp [chromaResponse, okResponse, chromaData]

/-- R138: `chroma` answers a pair exactly when the sum is not zero and both quotients are finite. -/
theorem chromaOf_ok_iff (t : Tristimulus) (c : Chromaticity) :
    chromaOf t = .ok c ↔ feq (tristimulusSum t) 0#64 = false ∧ isFinite c.x = true ∧ isFinite c.y = true ∧
      c = ⟨fdiv t.X (tristimulusSum t), fdiv t.Y (tristimulusSum t)⟩ := by
  obtain ⟨cx, cy⟩ := c
  simp only [chromaOf]
  generalize fdiv t.X (tristimulusSum t) = x
  generalize fdiv t.Y (tristimulusSum t) = y
  generalize feq (tristimulusSum t) 0#64 = zero
  cases zero <;> cases hx : isFinite x <;> cases hy : isFinite y <;> simp
  all_goals grind

/-- R141, R142: the response to a given chromaticity. -/
theorem cctResponse_mccamy (c : Chromaticity) :
    cctResponse (mccamy c) =
      if feq c.y kY = true ∨ isFinite (mccamyPolynomial (mccamyN c)) = false then ⟨.domainError, 0#4, 0#268⟩
      else ⟨.ok, 0#4, (mccamyPolynomial (mccamyN c)).setWidth 268⟩ := by
  simp only [mccamy]
  generalize mccamyPolynomial (mccamyN c) = p
  generalize feq c.y kY = atKY
  cases atKY <;> cases hp : isFinite p <;> simp [cctResponse, okResponse, f64Data]

/-- R142: CCT fails where CHROMA fails, and continues with its chromaticity where it does not. -/
theorem cctOf_cases (m : Cal) (f : QuadChannelFrame) :
    (∃ cause, chroma m f = .error cause ∧ cctOf m f = .error cause) ∨
    (∃ c, chroma m f = .ok c ∧ cctOf m f = mccamy c) := by
  cases h : chroma m f with
  | error cause => exact .inl ⟨cause, rfl, by simp only [cctOf, h]⟩
  | ok c => exact .inr ⟨c, rfl, by simp only [cctOf, h]⟩

end Sys2Proof.Machine
end

