-- ==== Sys2Proof/Laws/Decode.lean ====
section
/-! SUPPORT. The operand packings of R66 and R67 lose nothing, and each header of R70 selects its operation. -/

namespace Sys2Proof

/-! ### ChannelSample -/

@[simp] theorem ChannelSample.unpack_pack (s : ChannelSample) : ChannelSample.unpack s.pack = s := by
  obtain ⟨code, m, e, cnt, k⟩ := s
  simp only [ChannelSample.unpack, ChannelSample.pack, ChannelSample.mk.injEq]
  refine ⟨?_, ?_, ?_, ?_, ?_⟩ <;>
    · ext j hj
      simp only [BitVec.getElem_extractLsb', BitVec.getLsbD_append]
      grind

@[simp] theorem ChannelSample.pack_unpack (v : SampleBits) : (ChannelSample.unpack v).pack = v := by
  ext j hj
  simp only [ChannelSample.pack, ChannelSample.unpack]
  grind

/-! ### QuadChannelFrame -/

@[simp] theorem QuadChannelFrame.unpack_pack (f : QuadChannelFrame) : QuadChannelFrame.unpack f.pack = f := by
  have part : ∀ (a b c d : SampleBits),
      (d ++ c ++ b ++ a : PortBits).extractLsb' 0 67 = a ∧ (d ++ c ++ b ++ a : PortBits).extractLsb' 67 67 = b ∧
      (d ++ c ++ b ++ a : PortBits).extractLsb' 134 67 = c ∧ (d ++ c ++ b ++ a : PortBits).extractLsb' 201 67 = d := by
    intro a b c d
    refine ⟨?_, ?_, ?_, ?_⟩ <;>
      · ext j hj
        simp only [BitVec.getElem_extractLsb', BitVec.getLsbD_append]
        grind
  obtain ⟨h0, h1, h2, h3⟩ := part f.ch0.pack f.ch1.pack f.ch2.pack f.ch3.pack
  simp only [QuadChannelFrame.unpack, QuadChannelFrame.pack, h0, h1, h2, h3, ChannelSample.unpack_pack]

@[simp] theorem QuadChannelFrame.pack_unpack (v : PortBits) : (QuadChannelFrame.unpack v).pack = v := by
  simp only [QuadChannelFrame.pack, QuadChannelFrame.unpack, ChannelSample.pack_unpack]
  ext j hj
  simp only [BitVec.getElem_append, BitVec.getElem_extractLsb']
  grind

/-! ### Raw blocks -/

@[simp] theorem Raw4.unpack_pack (r : Raw4) : Raw4.unpack r.pack = r := by
  obtain ⟨b0, b1, b2, b3⟩ := r
  simp only [Raw4.unpack, Raw4.pack, Raw4.mk.injEq]
  refine ⟨?_, ?_, ?_, ?_⟩ <;>
    · ext j hj
      simp only [BitVec.getElem_extractLsb', BitVec.getLsbD_append]
      grind

@[simp] theorem Raw4.pack_unpack (v : BitVec 32) : (Raw4.unpack v).pack = v := by
  ext j hj
  simp only [Raw4.pack, Raw4.unpack]
  grind

@[simp] theorem Raw16.unpack_pack (r : Raw16) : Raw16.unpack r.pack = r := by
  have part : ∀ (a b c d : BitVec 32),
      (d ++ c ++ b ++ a : BitVec 128).extractLsb' 0 32 = a ∧ (d ++ c ++ b ++ a : BitVec 128).extractLsb' 32 32 = b ∧
      (d ++ c ++ b ++ a : BitVec 128).extractLsb' 64 32 = c ∧ (d ++ c ++ b ++ a : BitVec 128).extractLsb' 96 32 = d := by
    intro a b c d
    refine ⟨?_, ?_, ?_, ?_⟩ <;>
      · ext j hj
        simp only [BitVec.getElem_extractLsb', BitVec.getLsbD_append]
        grind
  obtain ⟨h0, h1, h2, h3⟩ := part r.ch0.pack r.ch1.pack r.ch2.pack r.ch3.pack
  simp only [Raw16.unpack, Raw16.pack, h0, h1, h2, h3, Raw4.unpack_pack]

@[simp] theorem Raw16.pack_unpack (v : BitVec 128) : (Raw16.unpack v).pack = v := by
  simp only [Raw16.pack, Raw16.unpack, Raw4.pack_unpack]
  ext j hj
  simp only [BitVec.getElem_append, BitVec.getElem_extractLsb']
  grind

/-- An operand placed in the low bits of `arg` is read back whole. -/
theorem extractLsb'_setWidth_low {n w : Nat} (h : n ≤ w) (v : BitVec n) : (v.setWidth w).extractLsb' 0 n = v := by
  ext j hj
  simp only [BitVec.getElem_extractLsb', BitVec.getLsbD_setWidth]
  grind

/-! ### The operation map, header by header -/

/-- R71: a header that selects row `row` and none before it gives that row's operation. -/
theorem decode_of_find {r : Request} {row : OpcodeRow} (h : opcodeTable.find? (fun row => row.selects r.hdr) = some row) :
    decode r = .ok (row.operation r) := by
  simp only [decode, h]

theorem decode_rdCtrl (arg : PortBits) : decode ⟨0x00#8, arg⟩ = .ok .rdCtrl := by
  simp [decode, opcodeTable, OpcodeRow.selects]

theorem decode_wrCtrl (arg : PortBits) : decode ⟨0x10#8, arg⟩ = .ok (.wrCtrl (arg.extractLsb' 0 8)) := by
  simp [decode, opcodeTable, OpcodeRow.selects]

theorem decode_decodeCh (arg : PortBits) : decode ⟨0x20#8, arg⟩ = .ok (.decodeCh (Raw4.unpack (arg.extractLsb' 0 32))) := by
  simp [decode, opcodeTable, OpcodeRow.selects]

theorem decode_decodeFrame (arg : PortBits) : decode ⟨0x30#8, arg⟩ = .ok (.decodeFrame (Raw16.unpack (arg.extractLsb' 0 128))) := by
  simp [decode, opcodeTable, OpcodeRow.selects]

theorem decode_validate (arg : PortBits) : decode ⟨0x40#8, arg⟩ = .ok (.validate (ChannelSample.unpack (arg.extractLsb' 0 67))) := by
  simp [decode, opcodeTable, OpcodeRow.selects]

theorem decode_lux (arg : PortBits) : decode ⟨0x50#8, arg⟩ = .ok (.lux (QuadChannelFrame.unpack arg)) := by
  simp [decode, opcodeTable, OpcodeRow.selects]

theorem decode_chroma (arg : PortBits) : decode ⟨0x60#8, arg⟩ = .ok (.chroma (QuadChannelFrame.unpack arg)) := by
  simp [decode, opcodeTable, OpcodeRow.selects]

theorem decode_cct (arg : PortBits) : decode ⟨0x70#8, arg⟩ = .ok (.cct (QuadChannelFrame.unpack arg)) := by
  simp [decode, opcodeTable, OpcodeRow.selects]

theorem decode_readFrame (arg : PortBits) : decode ⟨0x90#8, arg⟩ = .ok .readFrame := by
  simp [decode, opcodeTable, OpcodeRow.selects]

/-- R71: `hdr & 0xFC = 0x80` for READ_CH, the channel in `hdr[1:0]`. -/
theorem decode_readCh (c : Channel) (arg : PortBits) : decode ⟨0x80#8 ||| c.setWidth 8, arg⟩ = .ok (.readCh c) := by
  have h : ∀ c : Channel, c = 0#2 ∨ c = 1#2 ∨ c = 2#2 ∨ c = 3#2 := by decide
  rcases h c with rfl | rfl | rfl | rfl <;> simp [decode, opcodeTable, OpcodeRow.selects, Request.ch]

end Sys2Proof
end

