-- ==== Sys2Proof/Laws/State.lean ====
section
/-! SUPPORT. One lemma per field per update of the state, so that no later proof unfolds a record update. -/

namespace Sys2Proof.Machine

/-! ### State.writeCtrl -/

@[simp] theorem State.writeCtrl_build (s : State) (v : Byte) : (s.writeCtrl v).build = s.build := rfl
@[simp] theorem State.writeCtrl_csumEn (s : State) (v : Byte) : (s.writeCtrl v).csumEn = v.getLsbD 0 := rfl
@[simp] theorem State.writeCtrl_busy (s : State) (v : Byte) : (s.writeCtrl v).busy = s.busy := rfl
@[simp] theorem State.writeCtrl_inbox (s : State) (v : Byte) : (s.writeCtrl v).inbox = s.inbox := rfl
@[simp] theorem State.writeCtrl_answers (s : State) (v : Byte) : (s.writeCtrl v).answers = s.answers := rfl
@[simp] theorem State.writeCtrl_responses (s : State) (v : Byte) : (s.writeCtrl v).responses = s.responses := rfl
@[simp] theorem State.writeCtrl_transactions (s : State) (v : Byte) : (s.writeCtrl v).transactions = s.transactions := rfl

/-! ### State.respond -/

@[simp] theorem State.respond_build (s : State) (r : Response) : (s.respond r).build = s.build := rfl
@[simp] theorem State.respond_csumEn (s : State) (r : Response) : (s.respond r).csumEn = s.csumEn := rfl
@[simp] theorem State.respond_busy (s : State) (r : Response) : (s.respond r).busy = s.busy := rfl
@[simp] theorem State.respond_inbox (s : State) (r : Response) : (s.respond r).inbox = s.inbox := rfl
@[simp] theorem State.respond_answers (s : State) (r : Response) : (s.respond r).answers = s.answers := rfl
@[simp] theorem State.respond_responses (s : State) (r : Response) : (s.respond r).responses = s.responses ++ [r] := rfl
@[simp] theorem State.respond_transactions (s : State) (r : Response) : (s.respond r).transactions = s.transactions := rfl

/-! ### State.raise -/

@[simp] theorem State.raise_build (s : State) (st : Status) : (s.raise st).build = s.build := rfl
@[simp] theorem State.raise_csumEn (s : State) (st : Status) : (s.raise st).csumEn = s.csumEn := rfl
@[simp] theorem State.raise_busy (s : State) (st : Status) : (s.raise st).busy = s.busy := rfl
@[simp] theorem State.raise_inbox (s : State) (st : Status) : (s.raise st).inbox = s.inbox := rfl
@[simp] theorem State.raise_answers (s : State) (st : Status) : (s.raise st).answers = s.answers := rfl
@[simp] theorem State.raise_responses (s : State) (st : Status) : (s.raise st).responses = s.responses ++ [⟨st, 0#4, 0#268⟩] := rfl
@[simp] theorem State.raise_transactions (s : State) (st : Status) : (s.raise st).transactions = s.transactions := rfl

/-! ### State.issue -/

@[simp] theorem State.issue_build (s : State) (t : Transaction) : (s.issue t).build = s.build := rfl
@[simp] theorem State.issue_csumEn (s : State) (t : Transaction) : (s.issue t).csumEn = s.csumEn := rfl
@[simp] theorem State.issue_busy (s : State) (t : Transaction) : (s.issue t).busy = s.busy := rfl
@[simp] theorem State.issue_inbox (s : State) (t : Transaction) : (s.issue t).inbox = s.inbox := rfl
@[simp] theorem State.issue_answers (s : State) (t : Transaction) : (s.issue t).answers = s.answers.drop 1 := rfl
@[simp] theorem State.issue_responses (s : State) (t : Transaction) : (s.issue t).responses = s.responses := rfl
@[simp] theorem State.issue_transactions (s : State) (t : Transaction) : (s.issue t).transactions = s.transactions ++ [t] := rfl

/-! ### State.hang -/

@[simp] theorem State.hang_build (s : State) (i : Instr) : (s.hang i).build = s.build := rfl
@[simp] theorem State.hang_csumEn (s : State) (i : Instr) : (s.hang i).csumEn = s.csumEn := rfl
@[simp] theorem State.hang_busy (s : State) (i : Instr) : (s.hang i).busy = some i := rfl
@[simp] theorem State.hang_inbox (s : State) (i : Instr) : (s.hang i).inbox = s.inbox := rfl
@[simp] theorem State.hang_answers (s : State) (i : Instr) : (s.hang i).answers = s.answers := rfl
@[simp] theorem State.hang_responses (s : State) (i : Instr) : (s.hang i).responses = s.responses := rfl
@[simp] theorem State.hang_transactions (s : State) (i : Instr) : (s.hang i).transactions = s.transactions := rfl

/-! ### State.pinReset -/

@[simp] theorem State.pinReset_build (s : State) : (s.pinReset).build = s.build := rfl
@[simp] theorem State.pinReset_csumEn (s : State) : (s.pinReset).csumEn = false := rfl
@[simp] theorem State.pinReset_busy (s : State) : (s.pinReset).busy = none := rfl
@[simp] theorem State.pinReset_inbox (s : State) : (s.pinReset).inbox = s.inbox := rfl
@[simp] theorem State.pinReset_answers (s : State) : (s.pinReset).answers = s.answers := rfl
@[simp] theorem State.pinReset_responses (s : State) : (s.pinReset).responses = s.responses := rfl
@[simp] theorem State.pinReset_transactions (s : State) : (s.pinReset).transactions = s.transactions := rfl

/-! ### State.present -/

@[simp] theorem State.present_build (s : State) (r : Request) : (s.present r).build = s.build := rfl
@[simp] theorem State.present_csumEn (s : State) (r : Request) : (s.present r).csumEn = s.csumEn := rfl
@[simp] theorem State.present_busy (s : State) (r : Request) : (s.present r).busy = none := rfl
@[simp] theorem State.present_inbox (s : State) (r : Request) : (s.present r).inbox = .request r :: s.inbox := rfl
@[simp] theorem State.present_answers (s : State) (r : Request) : (s.present r).answers = s.answers := rfl
@[simp] theorem State.present_responses (s : State) (r : Request) : (s.present r).responses = s.responses := rfl
@[simp] theorem State.present_transactions (s : State) (r : Request) : (s.present r).transactions = s.transactions := rfl

/-! ### CTRL -/

/-- R23: bits 7:1 read 0. -/
theorem State.ctrl_eq (s : State) : s.ctrl = if s.csumEn then 1#8 else 0#8 := by
  unfold State.ctrl; cases s.csumEn <;> rfl

end Sys2Proof.Machine
end

