-- ==== Sys2Proof/Laws/Ops.lean ====
section
/-! SUPPORT. For each shared operation, once, everything it can do. -/

namespace Sys2Proof.Machine

/-! ### The transport -/

@[simp] theorem State.nextAnswer_cons {s : State} {a : TransportAnswer} {rest : List TransportAnswer}
    (h : s.answers = a :: rest) (t : Transaction) : s.nextAnswer t = a := by
  simp [State.nextAnswer, h]

/-- Past the fixed answers, the answer is the free value of the draw. -/
theorem State.nextAnswer_nil {s : State} (h : s.answers = []) (t : Transaction) :
    s.nextAnswer t = Config.transportAnswer s.transactions.length t := by
  simp [State.nextAnswer, h]

/-- R40: the three things a read can come to, each with the answers that lead there. -/
theorem readResult_cases (n : BitVec 16) (a : TransportAnswer) :
    (∃ bytes, a = .ok bytes ∧ bytes.length = n.toNat ∧ readResult n a = .data bytes) ∨
    ((a = .busError ∨ ∃ bytes, a = .ok bytes ∧ bytes.length ≠ n.toNat) ∧ readResult n a = .busError) ∨
    (a = .silent ∧ readResult n a = .silent) := by
  cases a with
  | ok bytes => by_cases h : bytes.length = n.toNat <;> simp [readResult, h]
  | busError => simp [readResult]
  | silent => simp [readResult]

/-- Everything `readThen` can do: the transaction is issued in each case. -/
theorem State.readThen_cases (s : State) (i : Instr) (off : Byte) (n : BitVec 16) (k : List Byte → Response) :
    (∃ bytes, s.nextAnswer (.readBytes off n) = .ok bytes ∧ bytes.length = n.toNat ∧
      s.readThen i off n k = (s.issue (.readBytes off n)).respond (k bytes)) ∨
    ((s.nextAnswer (.readBytes off n) = .busError ∨
        ∃ bytes, s.nextAnswer (.readBytes off n) = .ok bytes ∧ bytes.length ≠ n.toNat) ∧
      s.readThen i off n k = (s.issue (.readBytes off n)).raise .busError) ∨
    (s.nextAnswer (.readBytes off n) = .silent ∧ s.readThen i off n k = (s.issue (.readBytes off n)).hang i) := by
  rcases readResult_cases n (s.nextAnswer (.readBytes off n)) with ⟨bytes, ha, hl, hr⟩ | ⟨ha, hr⟩ | ⟨ha, hr⟩
  · exact .inl ⟨bytes, ha, hl, by simp only [State.readThen, hr]⟩
  · exact .inr (.inl ⟨ha, by simp only [State.readThen, hr]⟩)
  · exact .inr (.inr ⟨ha, by simp only [State.readThen, hr]⟩)

/-- R172, R175: a response made from a cfail and the full data is legal. -/
theorem checkedResponse_legal (cfail : Nibble) (data : PortBits) : (checkedResponse cfail data).Legal := by
  unfold checkedResponse
  split
  · rfl
  · simpa [Response.Legal]

theorem okResponse_legal (data : PortBits) : (okResponse data).Legal := rfl

theorem chromaResponse_legal (r : Except DomainCause Chromaticity) : (chromaResponse r).Legal := by
  cases r with
  | error => exact ⟨rfl, rfl⟩
  | ok => rfl

theorem cctResponse_legal (r : Except DomainCause F64) : (cctResponse r).Legal := by
  cases r with
  | error => exact ⟨rfl, rfl⟩
  | ok => rfl

/-! ### The command port -/

theorem State.fetch_nothing {s : State} (h : s.inbox = []) :
    s.fetch = if s.busy.isSome then .stuck .transportSilent else .settled s := by
  simp [State.fetch, h]

theorem State.fetch_reset {s : State} {rest : List PortEvent} (h : s.inbox = .reset :: rest) :
    s.fetch = .settled { s with inbox := rest }.pinReset := by
  simp [State.fetch, h]

theorem State.fetch_request {s : State} {r : Request} {rest : List PortEvent} (h : s.inbox = .request r :: rest) :
    s.fetch = if s.busy.isSome then .settled { s with inbox := rest } else { s with inbox := rest }.accept r := by
  simp [State.fetch, h]

theorem State.accept_ok {r : Request} {i : Instr} (h : decode r = .ok i) (s : State) : s.accept r = .run i s := by
  simp [State.accept, h]

theorem State.accept_error {r : Request} {e : DecodeError} (h : decode r = .error e) (s : State) :
    s.accept r = .settled (s.raise .illegalOp) := by
  simp [State.accept, h]

end Sys2Proof.Machine
end

