-- ==== Sys2Proof/Laws/Exec.lean ====
section
/-! SUPPORT. What an operation can do and what a step can do, each said once. -/

namespace Sys2Proof.Machine

/-- Everything an operation can do: WR_CTRL writes the flag and responds; the seven other operations without a transport
access give one response; the two reads issue one read and respond or hang. -/
theorem exec_cases {i : Instr} {s t : State} (h : exec i s = .next t) :
    (∃ v, i = .wrCtrl v ∧ t = (s.writeCtrl v).respond (okResponse 0#268)) ∨
    (¬ waitsOnTransport i ∧ (∀ v, i ≠ .wrCtrl v) ∧ ∃ r : Response, r.Legal ∧ t = s.respond r) ∨
    (waitsOnTransport i ∧ ∃ off n, Transaction.Legal s.build (.readBytes off n) ∧
      (t = (s.issue (.readBytes off n)).hang i ∨
        ∃ r : Response, r.Legal ∧ t = (s.issue (.readBytes off n)).respond r)) := by
  have pure_case : ∀ {r : Response}, r.Legal → (Host.Outcome.next (s.respond r) : Host.Outcome State Fault Refusal) = .next t →
      ∃ r : Response, r.Legal ∧ t = s.respond r := fun hr e => ⟨_, hr, by injection e with e; exact e.symm⟩
  have read_case : ∀ {off : Byte} {n : BitVec 16} {k : List Byte → Response}, (∀ b, (k b).Legal) → t = s.readThen i off n k →
      t = (s.issue (.readBytes off n)).hang i ∨ ∃ r : Response, r.Legal ∧ t = (s.issue (.readBytes off n)).respond r := by
    intro off n k hk e
    rcases s.readThen_cases i off n k with ⟨b, -, -, hr⟩ | ⟨-, hr⟩ | ⟨-, hr⟩
    · exact .inr ⟨_, hk b, e.trans hr⟩
    · exact .inr ⟨⟨.busError, 0#4, 0#268⟩, ⟨rfl, rfl⟩, e.trans hr⟩
    · exact .inl (e.trans hr)
  cases i with
  | wrCtrl v => exact .inl ⟨v, rfl, by injection h with h; exact h.symm⟩
  | rdCtrl => exact .inr (.inl ⟨id, by simp, pure_case (okResponse_legal _) h⟩)
  | decodeCh raw => exact .inr (.inl ⟨id, by simp, pure_case (okResponse_legal _) h⟩)
  | decodeFrame raw => exact .inr (.inl ⟨id, by simp, pure_case (okResponse_legal _) h⟩)
  | validate sample => exact .inr (.inl ⟨id, by simp, pure_case (okResponse_legal _) h⟩)
  | lux f => exact .inr (.inl ⟨id, by simp, pure_case (okResponse_legal _) h⟩)
  | chroma f => exact .inr (.inl ⟨id, by simp, pure_case (chromaResponse_legal _) h⟩)
  | cct f => exact .inr (.inl ⟨id, by simp, pure_case (cctResponse_legal _) h⟩)
  | readCh c =>
    exact .inr (.inr ⟨trivial, _, _, .inl ⟨c, rfl⟩,
      read_case (k := channelResponse s.build s.csumEn c) (fun _ => checkedResponse_legal _ _)
        (by injection h with h; exact h.symm)⟩)
  | readFrame =>
    exact .inr (.inr ⟨trivial, _, _, .inr rfl,
      read_case (k := frameResponse s.build s.csumEn) (fun _ => checkedResponse_legal _ _)
        (by injection h with h; exact h.symm)⟩)

/-- Everything a step that goes on can do. -/
theorem step_cases {s t : State} (h : step s = .next t) :
    (s.inbox = [] ∧ s.busy = none ∧ t = s) ∨
    (∃ rest, s.inbox = .reset :: rest ∧ t = { s with inbox := rest }.pinReset) ∨
    (∃ r rest, s.inbox = .request r :: rest ∧ s.busy ≠ none ∧ t = { s with inbox := rest }) ∨
    (∃ r rest e, s.inbox = .request r :: rest ∧ s.busy = none ∧ decode r = .error e ∧
      t = { s with inbox := rest }.raise .illegalOp) ∨
    (∃ r rest i, s.inbox = .request r :: rest ∧ s.busy = none ∧ decode r = .ok i ∧
      exec i { s with inbox := rest } = .next t) := by
  unfold step at h
  match hi : s.inbox with
  | [] =>
    rw [s.fetch_nothing hi] at h
    cases hb : s.busy with
    | none => simp [hb] at h; exact .inl ⟨rfl, rfl, h.symm⟩
    | some i => simp [hb] at h
  | .reset :: rest =>
    rw [s.fetch_reset hi] at h
    exact .inr (.inl ⟨rest, rfl, by injection h with h; exact h.symm⟩)
  | .request r :: rest =>
    rw [s.fetch_request hi] at h
    cases hb : s.busy with
    | some i =>
      simp only [hb, Option.isSome_some, if_true] at h
      exact .inr (.inr (.inl ⟨r, rest, rfl, by simp, by injection h with h; simpa [hb] using h.symm⟩))
    | none =>
      simp only [hb, Option.isSome_none, Bool.false_eq_true, if_false] at h
      cases hd : decode r with
      | error e =>
        rw [State.accept_error hd] at h
        exact .inr (.inr (.inr (.inl ⟨r, rest, e, rfl, rfl, hd, by injection h with h; simpa [hb] using h.symm⟩)))
      | ok i =>
        rw [State.accept_ok hd] at h
        exact .inr (.inr (.inr (.inr ⟨r, rest, i, rfl, rfl, hd, by simpa [hb] using h⟩)))

end Sys2Proof.Machine
end

