-- ==== Sys2Proof/Laws/Float64.lean ====
section
/-! SUPPORT. Lemmas of the binary64 definitions: the fields of an encoding, the shape of a rounded magnitude, and how far a
rounded integer lies from the exact quotient. -/

namespace Sys2Proof.Machine

/-! ### Fields -/

theorem expField_lt (a : F64) : expField a < 2048 := (a.extractLsb' 52 11).isLt

theorem fracField_lt (a : F64) : fracField a < 2 ^ 52 := (a.extractLsb' 0 52).isLt

theorem expField_eq (a : F64) : expField a = a.toNat / 2 ^ 52 % 2 ^ 11 := by
  simp [expField, BitVec.extractLsb'_toNat, Nat.shiftRight_eq_div_pow]

theorem fracField_eq (a : F64) : fracField a = a.toNat % 2 ^ 52 := by
  simp [fracField, BitVec.extractLsb'_toNat]

theorem signField_eq (a : F64) : signField a = decide (2 ^ 63 ≤ a.toNat) := by
  have h := a.isLt
  simp only [signField, BitVec.getLsbD, Nat.testBit_eq_decide_div_mod_eq, decide_eq_decide]
  omega

theorem withSign_toNat (neg : Bool) {mag : Nat} (h : mag < 2 ^ 63) :
    (withSign neg mag).toNat = if neg then 2 ^ 63 + mag else mag := by
  cases neg <;> simp [withSign, BitVec.toNat_ofNat] <;> omega

theorem signField_withSign (neg : Bool) {mag : Nat} (h : mag < 2 ^ 63) : signField (withSign neg mag) = neg := by
  rw [signField_eq, withSign_toNat neg h]
  cases neg <;> simp
  omega

theorem expField_withSign (neg : Bool) {mag : Nat} (h : mag < 2 ^ 63) : expField (withSign neg mag) = mag / 2 ^ 52 := by
  rw [expField_eq, withSign_toNat neg h]
  cases neg
  all_goals simp; omega

theorem fracField_withSign (neg : Bool) {mag : Nat} (h : mag < 2 ^ 63) : fracField (withSign neg mag) = mag % 2 ^ 52 := by
  rw [fracField_eq, withSign_toNat neg h]
  cases neg <;> simp
  omega

/-- An encoding below the infinities is finite, with these units. -/
theorem fpValue_withSign (neg : Bool) {mag : Nat} (h : mag < infBits) :
    fpValue (withSign neg mag) = .finite neg (unitsOf (mag / 2 ^ 52) (mag % 2 ^ 52)) := by
  have h' : mag < 2 ^ 63 := by unfold infBits at h; omega
  have he : mag / 2 ^ 52 ≠ 2047 := by unfold infBits at h; omega
  simp only [fpValue, expField_withSign neg h', fracField_withSign neg h', signField_withSign neg h', he, if_false]

theorem isFinite_iff (a : F64) : isFinite a = true ↔ expField a ≠ 2047 := by
  simp [isFinite]

/-- A finite encoding is a finite value. -/
theorem fpValue_of_isFinite {a : F64} (h : isFinite a = true) :
    fpValue a = .finite (signField a) (unitsOf (expField a) (fracField a)) := by
  simp [fpValue, (isFinite_iff a).1 h]

theorem isFinite_withSign (neg : Bool) {mag : Nat} (h : mag < infBits) : isFinite (withSign neg mag) = true := by
  rw [isFinite_iff, expField_withSign neg (by unfold infBits at h; omega)]
  unfold infBits at h; omega

/-! ### The three kinds of encoding -/

/-- A NaN encoding stands for a NaN. -/
theorem fpValue_of_isNaN {a : F64} (h : isNaN a = true) : fpValue a = .nan := by
  simp [isNaN] at h
  simp [fpValue, h.1, h.2]

/-- An infinity keeps its sign. -/
theorem fpValue_of_isInfinite {a : F64} (h : isInfinite a = true) : fpValue a = .infinite (signField a) := by
  simp [isInfinite] at h
  simp [fpValue, h.1, h.2]

/-- What is neither finite nor a NaN is an infinity. -/
theorem isInfinite_of_not {a : F64} (hn : isNaN a = false) (hf : isFinite a = false) : isInfinite a = true := by
  simp [isNaN, isFinite, isInfinite] at *
  exact ⟨hf, hn hf⟩

/-- There are two infinities, told apart by the sign. -/
theorem eq_withSign_of_isInfinite {a : F64} (h : isInfinite a = true) : a = withSign (signField a) infBits := by
  simp [isInfinite] at h
  have he := expField_eq a
  have hf := fracField_eq a
  have hs := signField_eq a
  have hlt := a.isLt
  apply BitVec.eq_of_toNat_eq
  rw [withSign_toNat _ (by unfold infBits; omega)]
  cases hsign : signField a <;> rw [hsign] at hs <;> simp at hs <;> simp [infBits] <;> omega

/-! ### Sign change -/

@[simp] theorem signField_fneg (a : F64) : signField (fneg a) = !signField a := by
  simp [signField, fneg]

@[simp] theorem expField_fneg (a : F64) : expField (fneg a) = expField a := by
  unfold expField fneg
  congr 1
  ext j hj
  simp
  simp [show ∀ j, j < 11 → (9223372036854775808#64).getLsbD (52 + j) = false by decide, hj]

@[simp] theorem fracField_fneg (a : F64) : fracField (fneg a) = fracField a := by
  unfold fracField fneg
  congr 1
  ext j hj
  simp
  simp [show ∀ j, j < 52 → (9223372036854775808#64).getLsbD j = false by decide, hj]

@[simp] theorem isNaN_fneg (a : F64) : isNaN (fneg a) = isNaN a := by simp [isNaN]
@[simp] theorem isInfinite_fneg (a : F64) : isInfinite (fneg a) = isInfinite a := by simp [isInfinite]
@[simp] theorem isFinite_fneg (a : F64) : isFinite (fneg a) = isFinite a := by simp [isFinite]

/-- The number of units is zero for either sign of zero. -/
@[simp] theorem signedUnits_eq_zero_iff (neg : Bool) (units : Nat) : signedUnits neg units = 0 ↔ units = 0 := by
  cases neg <;> simp [signedUnits]

/-! ### Units -/

/-- A magnitude built as `roundMag` builds it stands for `m * 2^k` units, also where `m` carries into the exponent. -/
theorem unitsOf_mag (k m : Nat) (h : (k = 0 ∧ m ≤ 2 ^ 53) ∨ (2 ^ 52 ≤ m ∧ m ≤ 2 ^ 53)) :
    unitsOf ((2 ^ 52 * k + m) / 2 ^ 52) ((2 ^ 52 * k + m) % 2 ^ 52) = m * 2 ^ k := by
  have hdiv : (2 ^ 52 * k + m) / 2 ^ 52 = k + m / 2 ^ 52 := by omega
  have hmod : (2 ^ 52 * k + m) % 2 ^ 52 = m % 2 ^ 52 := by omega
  rw [hdiv, hmod]
  rcases Nat.lt_or_ge m (2 ^ 52) with hm | hm
  · have hk : k = 0 := by omega
    have : m / 2 ^ 52 = 0 := by omega
    simp only [unitsOf, hk, this, if_true, Nat.add_zero]; omega
  · rcases Nat.lt_or_ge m (2 ^ 53) with hm' | hm'
    · have h1 : m / 2 ^ 52 = 1 := by omega
      have h2 : 2 ^ 52 + m % 2 ^ 52 = m := by omega
      simp only [unitsOf, h1, Nat.add_eq_zero_iff, Nat.add_sub_cancel, h2]; simp
    · have hm'' : m = 2 ^ 53 := by omega
      subst hm''
      have h1 : 2 ^ 53 / 2 ^ 52 = 2 := by norm_num
      have h2 : (2 ^ 53) % 2 ^ 52 = 0 := by norm_num
      have h3 : k + 2 - 1 = k + 1 := by omega
      simp only [unitsOf, h1, h2, h3, Nat.add_eq_zero_iff, Nat.add_zero]
      simp only [OfNat.ofNat_ne_zero, and_false, if_false]
      ring

/-! ### Rounding -/

/-- The rounded integer is within half of the exact quotient, and even at a tie. -/
theorem roundHalfEven_near (a : Nat) {b : Nat} (hb : 0 < b) :
    2 * ((a : Int) - roundHalfEven a b * b).natAbs ≤ b ∧
    (2 * ((a : Int) - roundHalfEven a b * b).natAbs = b → roundHalfEven a b % 2 = 0) := by
  have hdm := Nat.div_add_mod a b
  have hr := Nat.mod_lt a hb
  unfold roundHalfEven
  generalize a / b = d at *
  generalize a % b = r at *
  have hz : (a : Int) = b * d + r := by exact_mod_cast hdm.symm
  by_cases h : b < 2 * r ∨ (2 * r = b ∧ d % 2 = 1)
  · have e : (a : Int) - ((d + 1 : Nat) : Int) * b = r - b := by push_cast; rw [hz]; ring
    simp only [h, if_true, e]
    constructor <;> omega
  · have e : (a : Int) - (d : Int) * b = r := by rw [hz]; ring
    simp only [h, if_false, e]
    constructor <;> omega

/-- The rounded integer is the quotient or the next one. -/
theorem roundHalfEven_range (a b : Nat) : a / b ≤ roundHalfEven a b ∧ roundHalfEven a b ≤ a / b + 1 := by
  unfold roundHalfEven
  dsimp only
  split <;> omega

/-- How far the unit in the last place of `num / den` stands above one unit. -/
def roundShift (num den : Nat) : Nat := (num / den).log2 - 52

/-- The significand `roundMag` makes. -/
def roundSignificand (num den : Nat) : Nat := roundHalfEven num (den * 2 ^ roundShift num den)

theorem roundMag_eq (num den : Nat) :
    roundMag num den = min (2 ^ 52 * roundShift num den + roundSignificand num den) infBits := rfl

/-- The significand is normal unless the shift is 0. -/
theorem roundSignificand_range (num : Nat) (den : Nat) :
    (roundShift num den = 0 ∧ roundSignificand num den ≤ 2 ^ 53) ∨
    (2 ^ 52 ≤ roundSignificand num den ∧ roundSignificand num den ≤ 2 ^ 53) := by
  have hrange := roundHalfEven_range num (den * 2 ^ roundShift num den)
  rw [← Nat.div_div_eq_div_mul] at hrange
  change num / den / 2 ^ roundShift num den ≤ roundSignificand num den ∧ _ at hrange
  have hup : num / den < 2 ^ ((num / den).log2 + 1) := Nat.lt_log2_self
  by_cases hs : roundShift num den = 0
  · left
    refine ⟨hs, ?_⟩
    have h1 : (num / den).log2 + 1 ≤ 53 := by unfold roundShift at hs; omega
    have h2 := Nat.lt_of_lt_of_le hup (Nat.pow_le_pow_right (by decide : 0 < 2) h1)
    have h3 := hrange.2
    rw [hs] at h3
    simp only [roundSignificand, hs] at h3 ⊢
    omega
  · right
    have hl : (num / den).log2 = 52 + roundShift num den := by unfold roundShift at hs ⊢; omega
    have hne : num / den ≠ 0 := by intro h; simp [roundShift, h] at hs
    have hlo : 2 ^ (num / den).log2 ≤ num / den := Nat.log2_self_le hne
    rw [hl, Nat.pow_add] at hlo
    rw [hl, show 52 + roundShift num den + 1 = 53 + roundShift num den by omega, Nat.pow_add] at hup
    have a1 : 2 ^ 52 ≤ num / den / 2 ^ roundShift num den := (Nat.le_div_iff_mul_le (by positivity)).2 hlo
    have a2 : num / den / 2 ^ roundShift num den < 2 ^ 53 := (Nat.div_lt_iff_lt_mul (by positivity)).2 hup
    have := hrange.2
    constructor
    · omega
    · change roundSignificand num den ≤ _ at this; omega

theorem roundMag_le_infBits (num den : Nat) : roundMag num den ≤ infBits := Nat.min_le_right ..

/-- Rounding keeps the sign it is given, at overflow and at zero too. -/
@[simp] theorem signField_roundTo (neg : Bool) (num den : Nat) : signField (roundTo neg num den) = neg := by
  have h := roundMag_le_infBits num den
  exact signField_withSign neg (by unfold infBits at h; omega)

/-- A rounding that does not overflow stands for significand times 2^shift units. -/
theorem fpValue_roundTo (neg : Bool) {num den : Nat} (h : roundMag num den < infBits) :
    fpValue (roundTo neg num den) = .finite neg (roundSignificand num den * 2 ^ roundShift num den) := by
  have h' : roundMag num den = 2 ^ 52 * roundShift num den + roundSignificand num den := by
    rw [roundMag_eq] at h ⊢; omega
  rw [roundTo, fpValue_withSign neg h, h', unitsOf_mag _ _ (roundSignificand_range num den)]

/-- A rounded result is finite exactly when the rounding does not overflow. -/
theorem isFinite_roundTo_iff (neg : Bool) (num den : Nat) :
    isFinite (roundTo neg num den) = true ↔ roundMag num den < infBits := by
  constructor
  · intro h
    rcases Nat.lt_or_ge (roundMag num den) infBits with hlt | hge
    · exact hlt
    · have e : roundMag num den = infBits := le_antisymm (roundMag_le_infBits _ _) hge
      rw [roundTo, e, isFinite_iff, expField_withSign neg (by unfold infBits; omega)] at h
      exact absurd (by unfold infBits; norm_num) h
  · exact isFinite_withSign neg

end Sys2Proof.Machine
end

