-- ==== Sys2Proof/Laws/PerInstr.lean ====
section
/-! SUPPORT. The family EncodeWf: the encoder emits a legal header and sets no `arg` bit outside the operand (R65, R70). -/

namespace Sys2Proof.Laws.EncodeWf

/-- The request made for `i` passes the check. -/
def Statement (i : Instr) : Prop := (encode i).wf = true

theorem wf_of_width {hdr : Byte} {arg : PortBits} {n : Nat} (hw : Request.operandWidth hdr = some n)
    (ha : arg >>> n = 0#268) : Request.wf ⟨hdr, arg⟩ = true := by
  simp only [Request.wf, hw, ha, beq_self_eq_true]

/-- An operand of `n` bits placed in `arg` sets no bit from `n` up. -/
theorem narrow {n : Nat} (v : BitVec n) : (v.setWidth 268) >>> n = 0#268 := by
  ext j hj
  simp

/-- No bit stands from 268 up. -/
theorem whole (v : PortBits) : v >>> 268 = 0#268 := by
  ext j hj
  simp

/-- A request without an operand. -/
theorem empty : (0#268) >>> 0 = 0#268 := by simp

theorem rdCtrl : Statement .rdCtrl := wf_of_width (hdr := 0x00#8) (by decide) empty

theorem wrCtrl (v : Byte) : Statement (.wrCtrl v) := wf_of_width (hdr := 0x10#8) (by decide) (narrow v)

theorem decodeCh (raw : Raw4) : Statement (.decodeCh raw) :=
  wf_of_width (hdr := 0x20#8) (by decide) (narrow raw.pack)

theorem decodeFrame (raw : Raw16) : Statement (.decodeFrame raw) :=
  wf_of_width (hdr := 0x30#8) (by decide) (narrow raw.pack)

theorem validate (sample : ChannelSample) : Statement (.validate sample) :=
  wf_of_width (hdr := 0x40#8) (by decide) (narrow sample.pack)

theorem lux (frame : QuadChannelFrame) : Statement (.lux frame) := wf_of_width (hdr := 0x50#8) (by decide) (whole frame.pack)

theorem chroma (frame : QuadChannelFrame) : Statement (.chroma frame) :=
  wf_of_width (hdr := 0x60#8) (by decide) (whole frame.pack)

theorem cct (frame : QuadChannelFrame) : Statement (.cct frame) := wf_of_width (hdr := 0x70#8) (by decide) (whole frame.pack)

theorem readCh (c : Channel) : Statement (.readCh c) := by
  have h : ∀ c : Channel, Request.operandWidth (0x80#8 ||| c.setWidth 8) = some 0 := by decide
  exact wf_of_width (h c) empty

theorem readFrame : Statement .readFrame := wf_of_width (hdr := 0x90#8) (by decide) empty

end Sys2Proof.Laws.EncodeWf
end

