-- ==== Sys2Proof/Tests/Slice0.lean ====
section
/-! SUPPORT. Tests of the model by hand: expected values are those of spec/95_test_vectors.md unless a comment says otherwise.
The last part shows, for each statement with hypotheses, a state and operands that meet them. -/

namespace Sys2Proof.Tests

open Sys2Proof Sys2Proof.Machine

-- One theorem after the other: each kernel evaluation would otherwise hold a thread.
set_option Elab.async false

/-! ### Helpers -/

/-- The state an outcome goes on in. -/
def after (o : Host.Outcome State Fault Refusal) : Option State :=
  match o with
  | .next t => some t
  | .fault _ => none
  | .refused _ => none

/-- The responses an outcome leaves. -/
def responses (o : Host.Outcome State Fault Refusal) : Option (List Response) := (after o).map (·.responses)

/-- The transactions an outcome leaves. -/
def transactions (o : Host.Outcome State Fault Refusal) : Option (List Transaction) := (after o).map (·.transactions)

/-- After reset, with the flag and the transport's answers as given. -/
def machine (en : Bool) (answers : List TransportAnswer) : State :=
  { State.reset with csumEn := en, answers := answers }

/-- The default build with little-endian registers. -/
def littleBuild : Build := { defaultBuild with byteOrder := .little }

/-- The default build with the transmitted checksum as the third field. -/
def checksumBuild : Build := { defaultBuild with csumSource := .checksum }

/-- A block waiting on a silent transport, with these events to come. -/
def waiting (events : List PortEvent) : State :=
  { State.reset with csumEn := true, busy := some (.readCh 1#2), inbox := events }

/-- A sample of which only the code is set. -/
def coded (code : Nat) : ChannelSample := ⟨BitVec.ofNat 35 code, 0#20, 0#4, 0#4, 0#4⟩

/-- A frame given by its codes. -/
def codes (c0 c1 c2 c3 : Nat) : QuadChannelFrame := ⟨coded c0, coded c1, coded c2, coded c3⟩

/-- Section 2.1, the sixteen bytes of its frame. -/
def frameBytes2 : List Byte :=
  [0x00#8, 0x4E#8, 0x20#8, 0x99#8, 0x00#8, 0xC3#8, 0x50#8, 0x92#8, 0x00#8, 0x2E#8, 0xE0#8, 0x9D#8, 0x20#8, 0x4E#8, 0x20#8, 0x9A#8]

/-- Section 2.4, ninth row. -/
def frameBytes3 : List Byte :=
  [0x00#8, 0x4E#8, 0x20#8, 0x98#8, 0x00#8, 0xC3#8, 0x50#8, 0x92#8, 0x00#8, 0x2E#8, 0xE0#8, 0x9D#8, 0x20#8, 0x4E#8, 0x20#8, 0x9B#8]

/-- `F2` of section 2.4. -/
def frame2 : PortBits := 0x00002710009C4053400000BB800BB80274000061A8061A8049000004E2004E20099#268

/-! ### WellFormed: each check refuses an ill-formed term -/

theorem test_default_build_is_wf : defaultBuild.wf = true := by decide +kernel
theorem test_row0_with_a_hole_is_refused :
    { defaultBuild with csumMap := { defaultCsumMap with row0 := 0xFFFFFFE#28 } }.wf = false := by decide +kernel
theorem test_coefficient_of_2_to_900_is_refused :
    { defaultBuild with cal := { defaultCal with row3 := ⟨0#64, 0#64, 0#64, 0x7830000000000000#64⟩ } }.wf = false := by decide +kernel
theorem test_infinite_coefficient_is_refused : calEntryBounded 0xFFF0000000000000#64 = false := by decide +kernel
theorem test_largest_coefficient_is_accepted : calEntryBounded 0xF82FFFFFFFFFFFFF#64 = true := by decide +kernel
theorem test_offset_past_255_is_refused : { defaultBuild with chBase := 0xF9#8 }.wf = false := by decide +kernel
theorem test_illegal_header_is_not_wf : Request.wf ⟨0x84#8, 0#268⟩ = false := by decide +kernel
theorem test_stray_operand_bit_is_not_wf :
    Request.wf ⟨0x10#8, 0x100#268⟩ = false ∧ Request.wf ⟨0x40#8, 1#268 <<< 67⟩ = false := by decide +kernel

/-! ### Decode: words written out from R70, R66 and R67 -/

theorem test_word_rdCtrl : decodeTableWord 8 0x00 = some .rdCtrl := by decide +kernel
/-- `hdr` 0x10, `arg[7:0]` 0xFE. -/
theorem test_word_wrCtrl : decodeTableWord 16 0xFE10 = some (.wrCtrl 0xFE#8) := by decide +kernel
/-- `b[0]` is the lowest byte of `arg`. -/
theorem test_word_decodeCh : decodeTableWord 40 0x674523B120 = some (.decodeCh ⟨0xB1#8, 0x23#8, 0x45#8, 0x67#8⟩) := by decide +kernel
/-- `b[0]` = 0x11 … `b[15]` = 0xF0, `b[4c]` first in channel `c`. -/
theorem test_word_decodeFrame : decodeTableWord 136 0xF0EFDEC4B5A6978879_6A5B4C3D2E1F1130 =
    some (.decodeFrame ⟨⟨0x11#8, 0x1F#8, 0x2E#8, 0x3D#8⟩, ⟨0x4C#8, 0x5B#8, 0x6A#8, 0x79#8⟩,
      ⟨0x88#8, 0x97#8, 0xA6#8, 0xB5#8⟩, ⟨0xC4#8, 0xDE#8, 0xEF#8, 0xF0#8⟩⟩) := by decide +kernel
/-- The packed sample of section 2.1 above a header 0x40. -/
theorem test_word_validate : decodeTableWord 75 0x0091A280012345B6740 =
    some (.validate ⟨152709120#35, 0x12345#20, 11#4, 6#4, 7#4⟩) := by decide +kernel
theorem test_word_lux : decodeTableWord 276 0x00002710009C4053400000BB800BB80274000061A8061A8049000004E2004E2009950 =
    some (.lux ⟨⟨20000#35, 0x04E20#20, 0#4, 9#4, 9#4⟩, ⟨50000#35, 0x0C350#20, 0#4, 9#4, 2#4⟩,
      ⟨12000#35, 0x02EE0#20, 0#4, 9#4, 13#4⟩, ⟨80000#35, 0x04E20#20, 2#4, 9#4, 10#4⟩⟩) := by decide +kernel
/-- Channel 3's code alone: bits 267:233 of `arg`. -/
theorem test_word_chroma : decodeTableWord 276 (0x60 + 2 ^ 275) = some (.chroma (codes 0 0 0 (2 ^ 34))) := by decide +kernel
theorem test_word_cct : decodeTableWord 276 (0x70 + 2 ^ 40) = some (.cct (codes 1 0 0 0)) := by decide +kernel
theorem test_word_readCh : decodeTableWord 8 0x82 = some (.readCh 2#2) := by decide +kernel
theorem test_word_readFrame : decodeTableWord 8 0x90 = some .readFrame := by decide +kernel
/-- Section 2.6, with the three ways R73 makes a header illegal. -/
theorem test_illegal_headers : decode ⟨0x84#8, 0#268⟩ = .error .reservedNonzero ∧
    decode ⟨0x21#8, 0#268⟩ = .error .strayChannel ∧ decode ⟨0x91#8, 0#268⟩ = .error .strayChannel ∧
    decode ⟨0xA0#8, 0#268⟩ = .error .unassignedOp ∧ decode ⟨0xFF#8, 0#268⟩ = .error .unassignedOp := by decide +kernel
theorem test_encode_words : encode (.readCh 3#2) = ⟨0x83#8, 0#268⟩ ∧ encode enCsum = ⟨0x10#8, 1#268⟩ ∧
    encode disCsum = ⟨0x10#8, 0#268⟩ := by decide +kernel

/-! ### Control (2.5) -/

theorem test_rdCtrl_reads_one : responses (exec .rdCtrl (machine true [])) = some [⟨.ok, 0#4, 0x01#268⟩] := by decide +kernel
theorem test_rdCtrl_reads_zero : responses (exec .rdCtrl State.reset) = some [⟨.ok, 0#4, 0x00#268⟩] := by decide +kernel
theorem test_wrCtrl_takes_bit_zero_only :
    (after (exec (.wrCtrl 0xFE#8) (machine true []))).map (·.csumEn) = some false := by decide +kernel
theorem test_wrCtrl_accepts_all_ones :
    after (exec (.wrCtrl 0xFF#8) State.reset) = some { State.reset with csumEn := true, responses := [⟨.ok, 0#4, 0#268⟩] } := by
  decide +kernel

/-! ### Sample Decoder (2.1) -/

theorem test_decodeCh_big : responses (exec (.decodeCh ⟨0xB1#8, 0x23#8, 0x45#8, 0x67#8⟩) State.reset) =
    some [⟨.ok, 0#4, 0x0091A280012345B67#268⟩] := by decide +kernel
/-- Little-endian: `e` = 2, `m` = 0x3B167, `cnt` = 4, `k` = 5, `code` = 968092. -/
theorem test_decodeCh_little :
    responses (exec (.decodeCh ⟨0xB1#8, 0x23#8, 0x45#8, 0x67#8⟩) { State.reset with build := littleBuild }) =
      some [⟨.ok, 0#4, (ChannelSample.pack ⟨968092#35, 0x3B167#20, 2#4, 4#4, 5#4⟩).setWidth 268⟩] := by decide +kernel
theorem test_decodeFrame : responses (exec (.decodeFrame ⟨⟨0x00#8, 0x4E#8, 0x20#8, 0x99#8⟩, ⟨0x00#8, 0xC3#8, 0x50#8, 0x92#8⟩,
    ⟨0x00#8, 0x2E#8, 0xE0#8, 0x9D#8⟩, ⟨0x20#8, 0x4E#8, 0x20#8, 0x9A#8⟩⟩) (machine true [])) = some [⟨.ok, 0#4, frame2⟩] := by decide +kernel
/-- `FF FF FF FF` on channel 3 alone: the largest code, 35 bits wide. -/
theorem test_decodeFrame_top : responses (exec (.decodeFrame ⟨⟨0#8, 0#8, 0#8, 0#8⟩, ⟨0#8, 0#8, 0#8, 0#8⟩, ⟨0#8, 0#8, 0#8, 0#8⟩,
    ⟨0xFF#8, 0xFF#8, 0xFF#8, 0xFF#8⟩⟩) State.reset) = some [⟨.ok, 0#4, 0x7FFFF8000FFFFFFFF#268 <<< 201⟩] := by decide +kernel

/-! ### Checksum Validator (2.2) -/

theorem test_validate_counter : responses (exec (.validate ⟨0#35, 0x12345#20, 11#4, 6#4, 7#4⟩) (machine true [])) =
    some [⟨.ok, 0#4, 0b01100#268⟩] := by decide +kernel
/-- `{0xFFFFF, 15, 15, 0xC}` under CHECKSUM: `X` = 0xE, no match. -/
theorem test_validate_checksum_source :
    responses (exec (.validate ⟨0#35, 0xFFFFF#20, 15#4, 15#4, 0xC#4⟩) { State.reset with build := checksumBuild }) =
      some [⟨.ok, 0#4, 0b11100#268⟩] := by decide +kernel

/-! ### Colorimetry Engine (2.3) -/

theorem test_lux : responses (exec (.lux (codes 152709120 288940 16384 4096)) State.reset) =
    some [⟨.ok, 0#4, 0x408369C49BA5E354#268⟩] := by decide +kernel
theorem test_lux_dark : responses (exec (.lux (codes 4096 0 7 5)) State.reset) = some [⟨.ok, 0#4, 0#268⟩] := by decide +kernel
/-- The all-maximum frame: `x` in the low half. -/
theorem test_chroma_maximum :
    responses (exec (.chroma (codes 0x7FFFF8000 0x7FFFF8000 0x7FFFF8000 0x7FFFF8000)) State.reset) =
      some [⟨.ok, 0#4, 0x3FC15D10D0F3A62A3FD39FFF58F37395#268⟩] := by decide +kernel
/-- Pure red: `x` above 1, `y` below 0, no clamping. -/
theorem test_chroma_pure_red : responses (exec (.chroma (codes 4096 0 0 0)) State.reset) =
    some [⟨.ok, 0#4, 0xBFB54B20DDBB726A3FF07BAAB902377B#268⟩] := by decide +kernel
theorem test_cct : responses (exec (.cct (codes 20000 50000 12000 80000)) State.reset) =
    some [⟨.ok, 0#4, 0x40B7B399A7CE82AE#268⟩] := by decide +kernel
/-- Channel 3 is ignored: the sum is zero. -/
theorem test_cct_dark : responses (exec (.cct (codes 0 0 0 12345)) State.reset) = some [⟨.domainError, 0#4, 0#268⟩] := by
  decide +kernel

/-- The decimals of R133's table, each the quotient of two exactly represented integers. -/
theorem test_cal_is_the_nearest_to_its_decimals :
    defaultCal.row0 = ⟨fdiv (u2f 234892992) (u2f (10 ^ 12)), fneg (fdiv (u2f 189652390) (u2f (10 ^ 13))),
      fdiv (u2f 120811684) (u2f (10 ^ 13)), 0#64⟩ ∧
    defaultCal.row1 = ⟨fdiv (u2f 407467441) (u2f (10 ^ 13)), fdiv (u2f 198958202) (u2f (10 ^ 12)),
      fneg (fdiv (u2f 158848115) (u2f (10 ^ 13))), fdiv (u2f 215) (u2f (10 ^ 5))⟩ ∧
    defaultCal.row2 = ⟨fdiv (u2f 928619404) (u2f (10 ^ 13)), fneg (fdiv (u2f 169739553) (u2f (10 ^ 13))),
      fdiv (u2f 674021520) (u2f (10 ^ 12)), 0#64⟩ := by decide +kernel

/-! ### Transport operations (2.4) -/

/-- With the flag on, channel 3's mismatch is bit 3 of cfail, and the read is at 0x06. -/
theorem test_readCh_mismatch : after (exec (.readCh 3#2) (machine true [.ok [0xB1#8, 0x23#8, 0x45#8, 0x67#8]])) =
    some { machine true [] with responses := [⟨.checksumError, 0b1000#4, 0x0091A280012345B67#268⟩],
                                transactions := [.readBytes 0x06#8 4#16] } := by decide +kernel
theorem test_readCh_busError : responses (exec (.readCh 2#2) (machine true [.busError])) = some [⟨.busError, 0#4, 0#268⟩] := by
  decide +kernel
/-- Channels 0 and 3 mismatch, and all four samples are returned: `k` is 8 in channel 0 and 0xB in channel 3. -/
theorem test_readFrame_mismatch : after (exec .readFrame (machine true [.ok frameBytes3, .silent])) =
    some { machine true [.silent] with
      responses := [⟨.checksumError, 0b1001#4, frame2 ^^^ 1#268 ^^^ (1#268 <<< 201)⟩], transactions := [.readBytes 0x00#8 16#16] } := by
  decide +kernel
theorem test_readFrame_ok : responses (exec .readFrame (machine true [.ok frameBytes2])) = some [⟨.ok, 0#4, frame2⟩] := by decide +kernel

/-! ### The step -/

theorem test_step_illegal_header : after (step ((machine true []).withFetchWord 8 0xA0)) =
    some { machine true [] with responses := [⟨.illegalOp, 0#4, 0#268⟩] } := by decide +kernel
theorem test_step_runs_a_presented_word : responses (step (State.reset.withFetchWord 40 0x674523B120)) =
    some [⟨.ok, 0#4, 0x0091A280012345B67#268⟩] := by decide +kernel
theorem test_step_reset_ends_a_wait : after (step (waiting [.reset])) = some State.reset := by decide +kernel

/-! ### Witnesses: for each statement with hypotheses, something that meets them -/

/-- OpcodePatternsSelectOneOperation: the last word of READ_CH matches its row; 0x84 matches none. -/
theorem witness_OpcodePatterns : (∃ row ∈ opcodeTable, 0x83#8 &&& row.mask = row.pattern) ∧
    (∀ row ∈ opcodeTable, 0x84#8 &&& row.mask ≠ row.pattern) := by
  constructor
  · exact ⟨⟨0xFC#8, 0x80#8, fun r => .readCh r.ch⟩, by simp [opcodeTable], by decide +kernel⟩
  · simp [opcodeTable]

/-- IllegalHeadersAnswerIllegalOp: each of the three ways, alone and at its boundary, and two legal headers. -/
theorem witness_IllegalHeaders :
    9 < ((0xA0#8).extractLsb' 4 4).toNat ∧ (0x84#8).extractLsb' 2 2 ≠ 0#2 ∧
    ((0x91#8).extractLsb' 0 2 ≠ 0#2 ∧ (0x91#8).extractLsb' 4 4 ≠ 8#4) ∧
    (∀ h ∈ [0x83#8, 0x90#8], ¬(9 < (h.extractLsb' 4 4).toNat ∨ h.extractLsb' 2 2 ≠ 0#2 ∨
      (h.extractLsb' 0 2 ≠ 0#2 ∧ h.extractLsb' 4 4 ≠ 8#4))) ∧
    { State.reset with inbox := [.request ⟨0xA0#8, 0#268⟩] }.busy = none := by decide +kernel

/-- DecodedRequestsEncodeBack: operands of all ones. -/
theorem witness_DecodedRequests : Request.wf ⟨0x10#8, 0xFF#268⟩ = true ∧ Request.wf ⟨0x40#8, (1#268 <<< 67) - 1#268⟩ = true ∧
    Request.wf ⟨0x50#8, BitVec.allOnes 268⟩ = true ∧ Request.wf ⟨0x83#8, 0#268⟩ = true := by decide +kernel

/-- ArgBitsOutsideTheOperandAreIgnored: args that differ first at bit 8. -/
theorem witness_ArgBits : Request.operandWidth 0x10#8 = some 8 ∧
    (∀ k < 8, (0x1FF#268).getLsbD k = (0xFF#268).getLsbD k) ∧ 0x1FF#268 ≠ 0xFF#268 := by decide +kernel

/-- OnlyWrCtrlAndResetChangeTheFlag: by each of the two. -/
theorem witness_OnlyWrCtrl :
    (after (step { State.reset with inbox := [.request (encode enCsum)] })).map (·.csumEn) = some true ∧
    (after (step { State.reset with csumEn := true, inbox := [.reset] })).map (·.csumEn) = some false := by decide +kernel

/-- DecodeChReturnsTheFields: both byte orders. -/
theorem witness_DecodeCh : State.reset.build.byteOrder = .big ∧
    { State.reset with build := littleBuild }.build.byteOrder = .little := by decide +kernel

/-- CodeScalingLaw: the widest pair of exponents. -/
theorem witness_CodeScaling : (0#4).toNat < (15#4).toNat := by decide +kernel

/-- LittleEndianSwapsBytesInsideRegisters, HistoryOnlyGrows, NoStepWritesTheSensor: a step that goes on, without a transaction,
with each of the two. -/
theorem witness_StepsGoOn : after (step State.reset) = some State.reset ∧
    transactions (step ((machine false [.busError]).withFetchWord 8 0x83)) = some [.readBytes 0x06#8 4#16] ∧
    transactions (step ((machine false [.busError]).withFetchWord 8 0x90)) = some [.readBytes 0x00#8 16#16] := by decide +kernel

/-- ValidateReportsTheComputedChecksum: the vector `V` for both sources. -/
theorem witness_Validate :
    (0xB123456#28 = 11#4 ++ 0x12345#20 ++ (if State.reset.build.csumSource = .counter then 6#4 else 7#4)) ∧
    (0xB123457#28 = 11#4 ++ 0x12345#20 ++ (if checksumBuild.csumSource = .counter then 6#4 else 7#4)) := by decide +kernel

/-- SingleBitFlipsAreDetected: a sample that matches under COUNTER and one under CHECKSUM (2.2), a full row 0, and the last bit of
each field. -/
theorem witness_SingleBitFlips : defaultBuild.csumRowFull = true ∧
    (checksumOk defaultBuild ⟨0#35, 0x12345#20, 11#4, 6#4, 6#4⟩).1 = true ∧ defaultBuild.csumSource = .counter ∧
    checksumBuild.csumRowFull = true ∧ (checksumOk checksumBuild ⟨0#35, 0x12345#20, 11#4, 6#4, 7#4⟩).1 = true ∧
    checksumBuild.csumSource = .checksum ∧ 19 < 20 ∧ 3 < 4 ∧ 1 ≤ 3 := by decide +kernel

/-- DefaultMapToggleClasses: the last bit. -/
theorem witness_ToggleClasses : 27 < 28 := by decide +kernel

/-- LuxIsOneProduct: a build that meets R9, and a code of 0. -/
theorem witness_Lux : State.reset.build.wf = true ∧ (codes 1 0 1 1).ch1.code = 0#35 := by decide +kernel

/-- ChromaIsTheQuotients: the intermediates of section 2.3 for `[20000, 50000, 12000, 80000]`. -/
theorem witness_Chroma :
    0x401F65EDE6747F08#64 = fadd (fadd (fmul (u2f 20000) (calEntry defaultCal 0#2 0#2))
      (fmul (u2f 50000) (calEntry defaultCal 1#2 0#2))) (fmul (u2f 12000) (calEntry defaultCal 2#2 0#2)) ∧
    0x4022BAD68365EDC9#64 = fadd (fadd (fmul (u2f 20000) (calEntry defaultCal 0#2 1#2))
      (fmul (u2f 50000) (calEntry defaultCal 1#2 1#2))) (fmul (u2f 12000) (calEntry defaultCal 2#2 1#2)) ∧
    0x401E247F153C85CB#64 = fadd (fadd (fmul (u2f 20000) (calEntry defaultCal 0#2 2#2))
      (fmul (u2f 50000) (calEntry defaultCal 1#2 2#2))) (fmul (u2f 12000) (calEntry defaultCal 2#2 2#2)) ∧
    0x4038C006809F3819#64 = fadd (fadd 0x401F65EDE6747F08#64 0x4022BAD68365EDC9#64) 0x401E247F153C85CB#64 ∧
    State.reset.build.cal = defaultCal := by decide +kernel

/-- CctIsMcCamysPolynomial: the trace of section 2.3 goes on from there. -/
theorem witness_Cct :
    0x3FD44C375ED6A2DE#64 = fdiv 0x401F65EDE6747F08#64 0x4038C006809F3819#64 ∧
    0x3FD8375C9065ABDD#64 = fdiv 0x4022BAD68365EDC9#64 0x4038C006809F3819#64 ∧
    0x3FB3BCEC3DD5B53A#64 = fdiv (fsub 0x3FD44C375ED6A2DE#64 0x3FD53F7CED916873#64)
      (fsub 0x3FC7C84B5DCC63F1#64 0x3FD8375C9065ABDD#64) ∧
    0x40B7B399A7CE82AE#64 = fadd (fadd (fadd
      (fmul 0x407B500000000000#64 (fmul (fmul 0x3FB3BCEC3DD5B53A#64 0x3FB3BCEC3DD5B53A#64) 0x3FB3BCEC3DD5B53A#64))
      (fmul 0x40AC220000000000#64 (fmul 0x3FB3BCEC3DD5B53A#64 0x3FB3BCEC3DD5B53A#64)))
      (fmul 0x40BACD0000000000#64 0x3FB3BCEC3DD5B53A#64)) 0x40B58D0000000000#64 := by decide +kernel

/-- A matrix whose X column is infinite for any light on channel 0. -/
def infiniteCal : Cal := { defaultCal with row0 := ⟨0x7FF0000000000000#64, 0#64, 0#64, 0#64⟩ }

/-- DomainTestsAreMadeInOrder: each clause of the chromaticity. -/
theorem witness_DomainTests_chroma :
    feq (tristimulusSum (xyz defaultCal (codes 0 0 0 1))) 0#64 = true ∧
    (feq (tristimulusSum (xyz infiniteCal (codes 1 0 0 0))) 0#64 = false ∧
      isFinite (fdiv (xyz infiniteCal (codes 1 0 0 0)).X (tristimulusSum (xyz infiniteCal (codes 1 0 0 0)))) = false) ∧
    (feq (tristimulusSum (xyz defaultCal (codes 1 1 1 1))) 0#64 = false ∧
      isFinite (fdiv (xyz defaultCal (codes 1 1 1 1)).X (tristimulusSum (xyz defaultCal (codes 1 1 1 1)))) = true ∧
      isFinite (fdiv (xyz defaultCal (codes 1 1 1 1)).Y (tristimulusSum (xyz defaultCal (codes 1 1 1 1)))) = true) := by
  decide +kernel

/-- DomainTestsAreMadeInOrder: each clause of McCamy's function; `x` is the largest finite number, then D65's. -/
theorem witness_DomainTests_mccamy :
    feq kY kY = true ∧
    (feq 0#64 kY = false ∧ isFinite (mccamyPolynomial (mccamyN ⟨0x7FEFFFFFFFFFFFFF#64, 0#64⟩)) = false) ∧
    (feq 0x3FC7C84B5DCC63F2#64 kY = false ∧
      isFinite (mccamyPolynomial (mccamyN ⟨0x3FD40346DC5D6388#64, 0x3FC7C84B5DCC63F2#64⟩)) = true) := by decide +kernel

/-- CctFailsWheneverChromaFails and DarkFramesAreDomainErrors: the dark frame in the default build. -/
theorem witness_DarkFrame :
    after (exec (.chroma (codes 0 0 0 12345)) State.reset) = some { State.reset with responses := [⟨.domainError, 0#4, 0#268⟩] } ∧
    State.reset.build.wf = true ∧ (codes 0 0 0 12345).ch0.code = 0#35 ∧ (codes 0 0 0 12345).ch1.code = 0#35 ∧
    (codes 0 0 0 12345).ch2.code = 0#35 := by decide +kernel

/-- ColorimetryNeverReturnsNonFinite, TristimulusValuesAreFinite: the default build and its matrix. -/
theorem witness_Finite : State.reset.build.wf = true ∧ defaultCal.bounded = true := by decide +kernel

/-- OnlyTheNamedCodesMatter: two frames that differ everywhere else. -/
theorem witness_OnlyTheNamedCodes :
    let f := codes 1 2 3 4
    let g : QuadChannelFrame := ⟨⟨1#35, 9#20, 1#4, 1#4, 1#4⟩, ⟨2#35, 9#20, 1#4, 1#4, 1#4⟩, ⟨3#35, 9#20, 1#4, 1#4, 1#4⟩, coded 5⟩
    f.ch1.code = g.ch1.code ∧ f.ch0.code = g.ch0.code ∧ f.ch2.code = g.ch2.code ∧ f ≠ g := by decide +kernel

/-- CodeConversionIsExact: the largest natural number below the bound. -/
theorem witness_CodeConversion : 2 ^ 53 - 1 < 2 ^ 53 ∧ u2f (2 ^ 53 - 1) = 0x433FFFFFFFFFFFFF#64 := by decide +kernel

/-- AdditionAndSubtractionRoundOnce, MultiplicationAndDivisionRoundOnce, SignsOfFiniteResults,
DifferenceIsZeroOnlyForEqualOperands: the largest finite number and the smallest subnormal; a sum that is zero and one that is not. -/
theorem witness_FiniteOperands :
    isFinite 0x7FEFFFFFFFFFFFFF#64 = true ∧ isFinite 0x0000000000000001#64 = true ∧ fpUnits 0x0000000000000001#64 ≠ 0 ∧
    fpUnits 0x7FEFFFFFFFFFFFFF#64 + fpUnits 0xFFEFFFFFFFFFFFFF#64 = 0 ∧
    fpUnits 0x7FEFFFFFFFFFFFFF#64 + fpUnits 0x0000000000000001#64 ≠ 0 := by decide +kernel

/-- SpecialOperandsFollowIeee, and the NaN and infinity clauses of DifferenceIsZeroOnlyForEqualOperands: a NaN, two infinities of one
sign and of both, an infinity beside a zero and beside a subnormal, a zero divisor under a zero and under a subnormal. -/
theorem witness_SpecialOperands :
    isNaN 0x7FF0000000000001#64 = true ∧
    isInfinite 0x7FF0000000000000#64 = true ∧ isInfinite 0xFFF0000000000000#64 = true ∧
    isNaN 0x7FF0000000000000#64 = false ∧ isFinite 0x7FF0000000000000#64 = false ∧ isNaN 0x0000000000000001#64 = false ∧
    isFinite 0x8000000000000000#64 = true ∧ fpUnits 0x8000000000000000#64 = 0 ∧
    isFinite 0x0000000000000001#64 = true ∧ fpUnits 0x0000000000000001#64 ≠ 0 := by decide +kernel

/-- ReadChDecodesTheAnswer, SilentTransportLeavesTheBlockBusy: each answer, for the last channel, with the flag on and a mismatch,
and with the flag off. -/
theorem witness_ReadCh :
    let t : Transaction := .readBytes (BitVec.ofNat 8 (defaultBuild.chBase.toNat + (3#2).toNat * defaultBuild.chStride)) 4#16
    t = .readBytes 0x06#8 4#16 ∧
    (machine true [.ok [0xB1#8, 0x23#8, 0x45#8, 0x67#8]]).nextAnswer t = .ok [0xB1#8, 0x23#8, 0x45#8, 0x67#8] ∧
    (checksumOk defaultBuild (decodeSample .big ⟨0xB1#8, 0x23#8, 0x45#8, 0x67#8⟩)).1 = false ∧
    (machine false [.ok [0xB1#8, 0x23#8, 0x45#8, 0x67#8]]).nextAnswer t = .ok [0xB1#8, 0x23#8, 0x45#8, 0x67#8] ∧
    (machine true [.busError]).nextAnswer t = .busError ∧
    ((machine true [.ok [0#8, 0#8, 0#8]]).nextAnswer t = .ok [0#8, 0#8, 0#8] ∧ [0#8, 0#8, 0#8].length ≠ 4) ∧
    (machine true [.silent]).nextAnswer t = .silent := by decide +kernel

/-- ReadFrameDecodesTheAnswer, SilentTransportLeavesTheBlockBusy: each answer; the samples are those of section 2.1. -/
theorem witness_ReadFrame :
    let t : Transaction := .readBytes defaultBuild.chBase 16#16
    (machine true [.ok frameBytes2]).nextAnswer t = .ok frameBytes2 ∧ frameBytes2.length = 16 ∧
    decodeSample .big ⟨frameBytes2.getD 12 0#8, frameBytes2.getD 13 0#8, frameBytes2.getD 14 0#8, frameBytes2.getD 15 0#8⟩ =
      ⟨80000#35, 0x04E20#20, 2#4, 9#4, 10#4⟩ ∧
    (machine true [.busError]).nextAnswer t = .busError ∧
    ((machine true [.ok (0#8 :: frameBytes2)]).nextAnswer t = .ok (0#8 :: frameBytes2) ∧ (0#8 :: frameBytes2).length ≠ 16) ∧
    (machine true [.silent]).nextAnswer t = .silent := by decide +kernel

/-- EachReadIsOneTransaction, FrameOfEveryOperation, PureOperationsIgnoreHistory: an operation that does not wait. -/
theorem witness_PureOperation : ¬ waitsOnTransport (.validate (coded 1)) ∧ Instr.validate (coded 1) ≠ .rdCtrl ∧
    (∀ v, Instr.validate (coded 1) ≠ .wrCtrl v) ∧ State.reset.build = defaultBuild ∧
    (after (exec (.validate (coded 1)) State.reset)).isSome = true := by
  exact ⟨id, by simp, by simp, rfl, by decide +kernel⟩

/-- ReadOffsetsDoNotWrap: the highest base R9 allows for a stride of 2. -/
theorem witness_Offsets : { defaultBuild with chBase := 0xF8#8 }.wf = true ∧
    channelOffset { defaultBuild with chBase := 0xF8#8 } 3#2 = 0xFE#8 := by decide +kernel

/-- OnlyResetEndsAWait: a busy block that takes a reset, and one that takes a request. -/
theorem witness_Wait : (waiting [.reset]).busy ≠ none ∧ (after (step (waiting [.reset]))).isSome = true ∧
    (waiting [.request ⟨0x00#8, 0#268⟩]).busy ≠ none ∧
    after (step (waiting [.request ⟨0x00#8, 0#268⟩])) = some (waiting []) := by decide +kernel

/-- RequestWhileBusyHasNoEffect, ResetClearsTheFlagAndAbandonsTheWait. -/
theorem witness_BusyEvents : (waiting [.request ⟨0x00#8, 0#268⟩]).busy ≠ none ∧
    (waiting [.request ⟨0x00#8, 0#268⟩]).inbox = [.request ⟨0x00#8, 0#268⟩] ∧ (waiting [.reset]).inbox = [.reset] ∧
    (after (step (waiting [.request ⟨0x00#8, 0#268⟩]))).isSome = true ∧ (∀ v, decode ⟨0x00#8, 0#268⟩ ≠ .ok (.wrCtrl v)) := by
  decide +kernel

/-- NothingHappensWithoutAnEvent: idle, and busy. -/
theorem witness_NoEvent : State.reset.inbox = [] ∧ State.reset.busy = none ∧ (waiting []).inbox = [] ∧ (waiting []).busy ≠ none := by
  decide +kernel

/-- StatusesByOperation, UnusedDataBitsAreZero, ErrorsLeaveTheStateAsItWas: a response of each status an operation can give. -/
theorem witness_Statuses :
    responses (exec (.lux (codes 0 0 0 0)) State.reset) = some ([] ++ [⟨.ok, 0#4, 0#268⟩]) ∧
    responses (exec (.chroma (codes 0 0 0 0)) State.reset) = some ([] ++ [⟨.domainError, 0#4, 0#268⟩]) ∧
    responses (exec .readFrame (machine true [.busError])) = some ([] ++ [⟨.busError, 0#4, 0#268⟩]) ∧
    responses (exec (.readCh 0#2) (machine true [.ok [0xB1#8, 0x23#8, 0x45#8, 0x67#8]])) =
      some ([] ++ [⟨.checksumError, 1#4, 0x0091A280012345B67#268⟩]) := by decide +kernel

/-- EveryOperationRespondsOnce: a transport whose next answer is fixed and not silent. -/
theorem witness_NotSilent : ∀ t : Transaction, (machine false [.busError]).nextAnswer t ≠ .silent := by
  intro t; simp [machine, State.nextAnswer]

/-- DeriveAssemblesTheDerivedColor: program P1's derived colour. -/
theorem witness_Derive : derivedColor State.reset.build (QuadChannelFrame.unpack frame2) =
    .ok ⟨0x405AE00000000000#64, 0x3FD44C375ED6A2DE#64, 0x3FD8375C9065ABDD#64, 0x40B7B399A7CE82AE#64⟩ := by decide +kernel

/-- StepRunsTheDecodedOperation: both clauses. -/
theorem witness_StepRuns : { State.reset with inbox := [.request (encode enCsum), .reset] }.busy = none ∧
    decode (encode enCsum) = .ok (.wrCtrl 0x01#8) ∧ decodeTableWord 8 0x90 = some .readFrame := by decide +kernel

/-- EveryStepKeepsTheInvariant: a state with a response, a transaction and a wait meets the invariant and steps. -/
theorem witness_Invariant :
    State.Inv { waiting [.reset] with responses := [⟨.ok, 0#4, 0#268⟩], transactions := [.readBytes 0x02#8 4#16] } ∧
    (after (step { waiting [.reset] with responses := [⟨.ok, 0#4, 0#268⟩], transactions := [.readBytes 0x02#8 4#16] })).isSome = true := by
  refine ⟨⟨by decide +kernel, ?_, ?_, ?_⟩, by decide +kernel⟩
  · intro r hr; cases List.mem_singleton.1 hr; exact rfl
  · intro t ht; cases List.mem_singleton.1 ht; exact .inl ⟨1#2, by decide +kernel⟩
  · intro i hi; cases hi; exact trivial

end Sys2Proof.Tests
end

section
/-! SUPPORT. The vocabulary of 00_scope.md: parity as a count of set bits (R11), and `feq` as equality of numbers (R13), with
what it says of a rounded difference (R141). -/

namespace Sys2Proof.Machine

/-! ### Parity (R11) -/

theorem parityBelow_eq_countP {w : Nat} (v : BitVec w) (n : Nat) :
    parityBelow v n = decide ((List.range n).countP (fun i => v.getLsbD i) % 2 = 1) := by
  induction n with
  | zero => simp [parityBelow]
  | succ n ih =>
    rw [parityBelow, ih, List.range_succ, List.countP_append, List.countP_singleton]
    cases v.getLsbD n
    · simp
    · simp only [Bool.true_xor, ← decide_not, if_true, decide_eq_decide]
      omega

/-! ### Numbers of units -/

@[simp] theorem fpUnits_fneg (a : F64) : fpUnits (fneg a) = -fpUnits a := by
  unfold fpUnits
  rw [signField_fneg, expField_fneg, fracField_fneg]
  cases signField a <;> simp [signedUnits]

/-- The exact sum of finite operands, rounded once unless it is zero. -/
theorem fadd_of_isFinite {a b : F64} (ha : isFinite a = true) (hb : isFinite b = true) :
    fadd a b = if fpUnits a + fpUnits b = 0 then withSign (signField a && signField b) 0
      else roundTo (decide (fpUnits a + fpUnits b < 0)) (fpUnits a + fpUnits b).natAbs 1 := by
  unfold fadd
  rw [fpValue_of_isFinite ha, fpValue_of_isFinite hb]
  rfl

/-- The exact difference of finite operands, rounded once unless it is zero. -/
theorem fsub_of_isFinite {a b : F64} (ha : isFinite a = true) (hb : isFinite b = true) :
    fsub a b = if fpUnits a - fpUnits b = 0 then withSign (signField a && !signField b) 0
      else roundTo (decide (fpUnits a - fpUnits b < 0)) (fpUnits a - fpUnits b).natAbs 1 := by
  rw [fsub, fadd_of_isFinite ha (by simpa using hb), fpUnits_fneg, signField_fneg, ← sub_eq_add_neg]

/-- Rounding to a whole number of units never reaches zero from above: underflow is gradual. -/
theorem roundSignificand_one_pos {num : Nat} (h : num ≠ 0) : 0 < roundSignificand num 1 := by
  rcases roundSignificand_range num 1 with ⟨hshift, -⟩ | ⟨hnormal, -⟩
  · have hquot := (roundHalfEven_range num 1).1
    rw [Nat.div_one] at hquot
    rw [roundSignificand, hshift]
    exact Nat.lt_of_lt_of_le (Nat.pos_of_ne_zero h) hquot
  · exact Nat.lt_of_lt_of_le (by positivity) hnormal

/-! ### feq (R13), by the kinds of its operands -/

theorem feq_comm (a b : F64) : feq a b = feq b a := by
  unfold feq
  cases fpValue a <;> cases fpValue b <;> simp [BEq.comm]

theorem feq_of_isFinite {a b : F64} (ha : isFinite a = true) (hb : isFinite b = true) :
    feq a b = decide (fpUnits a = fpUnits b) := by
  unfold feq
  rw [fpValue_of_isFinite ha, fpValue_of_isFinite hb]
  rfl

theorem feq_of_isNaN_left {a : F64} (ha : isNaN a = true) (b : F64) : feq a b = false := by
  simp [feq, fpValue_of_isNaN ha]

theorem feq_of_isInfinite {a b : F64} (ha : isInfinite a = true) (hb : isInfinite b = true) :
    feq a b = decide (a = b) := by
  have hsigns : signField a = signField b ↔ a = b :=
    ⟨fun h => by rw [eq_withSign_of_isInfinite ha, eq_withSign_of_isInfinite hb, h], congrArg signField⟩
  simp only [feq, fpValue_of_isInfinite ha, fpValue_of_isInfinite hb, ← hsigns]
  rfl

theorem feq_of_not_isFinite_of_isFinite {a b : F64} (ha : isFinite a = false) (hb : isFinite b = true) : feq a b = false := by
  cases hn : isNaN a with
  | true => exact feq_of_isNaN_left hn b
  | false => simp [feq, fpValue_of_isInfinite (isInfinite_of_not hn ha), fpValue_of_isFinite hb]

theorem ne_of_not_isFinite_of_isFinite {a b : F64} (ha : isFinite a = false) (hb : isFinite b = true) : a ≠ b := by
  rintro rfl
  exact Bool.false_ne_true (ha.symm.trans hb)

/-- Apart from NaNs, an operand that is not finite equals itself alone. -/
theorem feq_of_not_isFinite_left {a b : F64} (hna : isNaN a = false) (hnb : isNaN b = false) (ha : isFinite a = false) :
    feq a b = decide (a = b) := by
  cases hb : isFinite b with
  | true => rw [feq_of_not_isFinite_of_isFinite ha hb, decide_eq_false (ne_of_not_isFinite_of_isFinite ha hb)]
  | false => exact feq_of_isInfinite (isInfinite_of_not hna ha) (isInfinite_of_not hnb hb)

/-! ### A difference against zero (R141) -/

theorem feq_zero_of_fpValue {a : F64} {neg : Bool} {units : Nat} (h : fpValue a = .finite neg units) :
    feq a 0#64 = decide (units = 0) := by
  have hzero : fpValue 0#64 = .finite false 0 := by decide
  rw [Bool.eq_iff_iff, decide_eq_true_iff, ← signedUnits_eq_zero_iff neg]
  simp [feq, h, hzero, show signedUnits false 0 = 0 from rfl]

theorem feq_withSign_zero (neg : Bool) : feq (withSign neg 0) 0#64 = true := by
  cases neg <;> decide

/-- A rounded whole number of units that is not zero is a finite number that is not zero, or overflows to an infinity. -/
theorem feq_roundTo_one_zero (neg : Bool) {num : Nat} (h : num ≠ 0) : feq (roundTo neg num 1) 0#64 = false := by
  by_cases hfin : isFinite (roundTo neg num 1) = true
  · have hpos := roundSignificand_one_pos h
    have hunits : roundSignificand num 1 * 2 ^ roundShift num 1 ≠ 0 := by positivity
    rw [feq_zero_of_fpValue (fpValue_roundTo neg ((isFinite_roundTo_iff neg num 1).1 hfin)), decide_eq_false hunits]
  · exact feq_of_not_isFinite_of_isFinite (Bool.eq_false_iff.2 hfin) (by decide)

theorem feq_fsub_zero {a b : F64} (ha : isFinite a = true) (hb : isFinite b = true) :
    feq (fsub a b) 0#64 = feq a b := by
  rw [fsub_of_isFinite ha hb, feq_of_isFinite ha hb]
  by_cases hz : fpUnits a - fpUnits b = 0
  · rw [if_pos hz, feq_withSign_zero, decide_eq_true (sub_eq_zero.1 hz)]
  · rw [if_neg hz, feq_roundTo_one_zero _ (Int.natAbs_ne_zero.2 hz), decide_eq_false (mt sub_eq_zero.2 hz)]

end Sys2Proof.Machine

namespace Sys2Proof.Proofs

open Sys2Proof.Machine

/-- Settles O15, by induction on the number of low bits taken in. -/
theorem parityIsOneForAnOddNumberOfBits : Obligations.ParityIsOneForAnOddNumberOfBits :=
  fun w v => parityBelow_eq_countP v w

/-- Settles O32: an exact difference that is not zero is at least one unit, and rounding does not take it to zero. -/
theorem differenceIsZeroOnlyForEqualOperands : Obligations.DifferenceIsZeroOnlyForEqualOperands := by
  intro a b
  refine ⟨fun ha hb => ⟨feq_of_isFinite ha hb, feq_fsub_zero ha hb⟩, ?_, ?_⟩
  · rintro (ha | hb)
    · exact feq_of_isNaN_left ha b
    · rw [feq_comm, feq_of_isNaN_left hb a]
  · rintro hna hnb (ha | hb)
    · exact feq_of_not_isFinite_left hna hnb ha
    · rw [feq_comm, feq_of_not_isFinite_left hnb hna hb, decide_eq_decide, eq_comm]

end Sys2Proof.Proofs
end

section
/-! SUPPORT. The family of 10_state.md: who may write the flag (R25), what each operation leaves unchanged (R20, R22), and
what an operation without side effects depends on (R20). -/

namespace Sys2Proof.Machine

/-- R25: an operation leaves the flag, unless it is WR_CTRL, which takes bit 0 of its operand. -/
theorem exec_csumEn {i : Instr} {s t : State} (h : exec i s = .next t) :
    t.csumEn = s.csumEn ∨ ∃ v, i = .wrCtrl v ∧ t.csumEn = v.getLsbD 0 := by
  rcases exec_cases h with ⟨v, hi, rfl⟩ | ⟨-, -, r, -, rfl⟩ | ⟨-, off, n, -, rfl | ⟨r, -, rfl⟩⟩
  · exact .inr ⟨v, hi, by simp⟩
  all_goals exact .inl (by simp)

end Sys2Proof.Machine

namespace Sys2Proof.Proofs

open Sys2Proof.Machine

/-- Settles O10, by what a step can do: only a reset and an operation run from an idle block reach the flag. -/
theorem onlyWrCtrlAndResetChangeTheFlag : Obligations.OnlyWrCtrlAndResetChangeTheFlag := by
  intro s t h hne
  rcases step_cases h with ⟨-, -, rfl⟩ | ⟨rest, hin, rfl⟩ | ⟨r, rest, -, -, rfl⟩ | ⟨r, rest, e, -, -, -, rfl⟩ |
    ⟨r, rest, i, hin, hidle, hdec, hexec⟩
  · exact absurd rfl hne
  · exact .inl ⟨rest, hin, by simp⟩
  · exact absurd rfl hne
  · exact absurd (by simp) hne
  · obtain ⟨v, rfl, hv⟩ := (exec_csumEn hexec).resolve_left hne
    exact .inr ⟨hidle, r, rest, v, hin, hdec, hv⟩

/-- Settles O50, by what an operation can do; only a hanging read gives no response. -/
theorem frameOfEveryOperation : Obligations.FrameOfEveryOperation := by
  intro i s t h
  rcases exec_cases h with ⟨v, rfl, rfl⟩ | ⟨-, -, r, -, rfl⟩ | ⟨hwaits, off, n, -, rfl | ⟨r, -, rfl⟩⟩
  · exact ⟨by simp, by simp, ⟨[okResponse 0#268], by simp, by simp⟩, fun hnot => absurd rfl (hnot v), fun _ => by simp⟩
  · exact ⟨by simp, by simp, ⟨[r], by simp, by simp⟩, fun _ => by simp, fun _ => by simp⟩
  · exact ⟨by simp, by simp, ⟨[], by simp, by simp⟩, fun _ => by simp, fun hnot => absurd hwaits hnot⟩
  · exact ⟨by simp, by simp, ⟨[r], by simp, by simp⟩, fun _ => by simp, fun hnot => absurd hwaits hnot⟩

/-- Settles O52, with each pure operation's response written out as a function of its operand and the build. -/
theorem pureOperationsIgnoreHistory : Obligations.PureOperationsIgnoreHistory := by
  intro i b hrd hwr hpure
  cases i with
  | rdCtrl => exact absurd rfl hrd
  | wrCtrl v => exact absurd rfl (hwr v)
  | decodeCh raw => exact ⟨okResponse (sampleData (decodeSample b.byteOrder raw)), by rintro s rfl; rfl⟩
  | decodeFrame raw => exact ⟨okResponse (frameData (decodeQuad b.byteOrder raw)), by rintro s rfl; rfl⟩
  | validate sample =>
    exact ⟨okResponse (validateData (checksumOk b sample).1 (checksumOk b sample).2), by rintro s rfl; rfl⟩
  | lux f => exact ⟨okResponse (f64Data (luxOf b f)), by rintro s rfl; rfl⟩
  | chroma f => exact ⟨chromaResponse (chroma b.cal f), by rintro s rfl; rfl⟩
  | cct f => exact ⟨cctResponse (cctOf b.cal f), by rintro s rfl; rfl⟩
  | readCh c => exact absurd trivial hpure
  | readFrame => exact absurd trivial hpure

end Sys2Proof.Proofs
end

section
/-! SUPPORT. The family of 20_memory.md: what a step adds to the record of transactions (R41, R46, R47), that every operation
completes (R242), and the parameter that orders the bytes of a register (R42). -/

namespace Sys2Proof.Machine

/-! ### Reading through the transport -/

/-- R47: whatever the answer, a read is one transaction. -/
@[simp] theorem State.readThen_transactions (s : State) (i : Instr) (off : Byte) (n : BitVec 16) (k : List Byte → Response) :
    (s.readThen i off n k).transactions = s.transactions ++ [.readBytes off n] := by
  rcases s.readThen_cases i off n k with ⟨bytes, -, -, hr⟩ | ⟨-, hr⟩ | ⟨-, hr⟩
  all_goals simp [hr]

/-- R238: a read that is answered gives its response; only silence leaves it hanging. -/
theorem State.readThen_responds_of_answered {s : State} {off : Byte} {n : BitVec 16}
    (h : s.nextAnswer (.readBytes off n) ≠ .silent) (i : Instr) (k : List Byte → Response) :
    ∃ r, s.readThen i off n k = (s.issue (.readBytes off n)).respond r := by
  rcases s.readThen_cases i off n k with ⟨bytes, -, -, hr⟩ | ⟨-, hr⟩ | ⟨hsilent, -⟩
  · exact ⟨_, hr⟩
  · exact ⟨_, hr⟩
  · exact absurd hsilent h

/-! ### Operations -/

/-- No operation faults or is refused. -/
theorem exec_next (i : Instr) (s : State) : ∃ t, exec i s = .next t := by
  cases i <;> exact ⟨_, rfl⟩

/-- R172, R175: an operation that waits on the transport is one read through it. -/
theorem exec_eq_readThen {i : Instr} (h : waitsOnTransport i) (s : State) :
    ∃ off n k, exec i s = .next (s.readThen i off n k) := by
  cases i with
  | readCh c => exact ⟨_, _, _, rfl⟩
  | readFrame => exact ⟨_, _, _, rfl⟩
  | _ => exact h.elim

/-- R41: an operation issues nothing or one legal read. -/
theorem exec_transactions {i : Instr} {s t : State} (h : exec i s = .next t) :
    t.transactions = s.transactions ∨
    ∃ tx, Transaction.Legal s.build tx ∧ t.transactions = s.transactions ++ [tx] := by
  rcases exec_cases h with ⟨v, -, rfl⟩ | ⟨-, -, r, -, rfl⟩ | ⟨-, off, n, hlegal, rfl | ⟨r, -, rfl⟩⟩
  · exact .inl (by simp)
  · exact .inl (by simp)
  · exact .inr ⟨_, hlegal, by simp⟩
  · exact .inr ⟨_, hlegal, by simp⟩

/-! ### Steps -/

/-- R8: no step changes a parameter. -/
theorem step_build {s t : State} (h : step s = .next t) : t.build = s.build := by
  rcases step_cases h with ⟨-, -, rfl⟩ | ⟨rest, -, rfl⟩ | ⟨r, rest, -, -, rfl⟩ | ⟨r, rest, e, -, -, -, rfl⟩ |
    ⟨r, rest, i, -, -, -, hexec⟩
  · rfl
  · simp
  · rfl
  · simp
  · obtain ⟨hbuild, -⟩ := Proofs.frameOfEveryOperation i _ t hexec
    exact hbuild

/-- R41: a step issues nothing or one legal read. -/
theorem step_transactions {s t : State} (h : step s = .next t) :
    t.transactions = s.transactions ∨
    ∃ tx, Transaction.Legal s.build tx ∧ t.transactions = s.transactions ++ [tx] := by
  rcases step_cases h with ⟨-, -, rfl⟩ | ⟨rest, -, rfl⟩ | ⟨r, rest, -, -, rfl⟩ | ⟨r, rest, e, -, -, -, rfl⟩ |
    ⟨r, rest, i, -, -, -, hexec⟩
  · exact .inl rfl
  · exact .inl (by simp)
  · exact .inl rfl
  · exact .inl (by simp)
  · exact exec_transactions (s := { s with inbox := rest }) hexec

end Sys2Proof.Machine

namespace Sys2Proof.Proofs

open Sys2Proof.Machine

/-- Settles O14: the two decodings read the same registers, and no step reaches the build. -/
theorem littleEndianSwapsBytesInsideRegisters : Obligations.LittleEndianSwapsBytesInsideRegisters := by
  refine ⟨fun a b => ⟨rfl, rfl⟩, fun b0 b1 b2 b3 => ?_, fun s t h => by rw [step_build h]⟩
  have hhigh : highRegister .little ⟨b0, b1, b2, b3⟩ = highRegister .big ⟨b1, b0, b3, b2⟩ := rfl
  have hlow : lowRegister .little ⟨b0, b1, b2, b3⟩ = lowRegister .big ⟨b1, b0, b3, b2⟩ := rfl
  rw [decodeSample, decodeSample, hhigh, hlow]

/-- Settles O37: each read goes through the transport once, and the frame keeps the other operations off it. -/
theorem eachReadIsOneTransaction : Obligations.EachReadIsOneTransaction := by
  refine ⟨fun c s => ⟨_, rfl, ?_⟩, fun s => ⟨_, rfl, ?_⟩, fun i s t hpure h => ?_⟩
  · exact State.readThen_transactions ..
  · exact State.readThen_transactions ..
  · obtain ⟨-, -, -, -, hframe⟩ := frameOfEveryOperation i s t h
    obtain ⟨-, -, htransactions, -⟩ := hframe hpure
    exact htransactions

/-- Settles O49: the one transaction a step can add is legal, and the legal ones are the two reads. -/
theorem noStepWritesTheSensor : Obligations.NoStepWritesTheSensor := by
  intro s t h
  rcases step_transactions h with hnone | ⟨tx, ⟨c, rfl⟩ | rfl, hone⟩
  · exact .inl hnone
  · exact .inr (.inl ⟨c, hone⟩)
  · exact .inr (.inr hone)

/-- Settles O51: an answered read responds, and the frame gives the other operations their response. -/
theorem everyOperationRespondsOnce : Obligations.EveryOperationRespondsOnce := by
  intro i s hanswered
  by_cases hwaits : waitsOnTransport i
  · obtain ⟨off, n, k, hexec⟩ := exec_eq_readThen hwaits s
    obtain ⟨r, hr⟩ := State.readThen_responds_of_answered (hanswered hwaits (.readBytes off n)) i k
    exact ⟨_, r, hexec.trans (congrArg _ hr), by simp, by simp⟩
  · obtain ⟨t, hexec⟩ := exec_next i s
    obtain ⟨-, -, -, -, hframe⟩ := frameOfEveryOperation i s t hexec
    obtain ⟨hbusy, -, -, r, hresponse⟩ := hframe hwaits
    exact ⟨t, r, hexec, hresponse, hbusy⟩

end Sys2Proof.Proofs
end

section
/-! SUPPORT. The family of 30_encoding.md, the request (R65, R70, R71, R73): which row of the operation map a header selects,
which headers are legal, and how the decoder and the encoder undo each other. -/

namespace Sys2Proof

/-! ### Rows of the operation map (R71) -/

/-- Two rows whose patterns differ where both masks look select no header in common. -/
theorem not_both_match_of_patterns_differ {a b : OpcodeRow} (h : a.pattern &&& b.mask ≠ b.pattern &&& a.mask) (hdr : Byte) :
    ¬(hdr &&& a.mask = a.pattern ∧ hdr &&& b.mask = b.pattern) := by
  rintro ⟨ha, hb⟩
  apply h
  rw [← ha, ← hb]
  ac_rfl

theorem opcodeTable_no_overlap :
    opcodeTable.Pairwise (fun a b => ∀ hdr : Byte, ¬(hdr &&& a.mask = a.pattern ∧ hdr &&& b.mask = b.pattern)) := by
  have hpatterns : opcodeTable.Pairwise (fun a b => a.pattern &&& b.mask ≠ b.pattern &&& a.mask) := by decide
  exact hpatterns.imp not_both_match_of_patterns_differ

theorem OpcodeRow.selects_iff (row : OpcodeRow) (hdr : Byte) : row.selects hdr = true ↔ hdr &&& row.mask = row.pattern :=
  beq_iff_eq

/-- A row that matches is the first that matches, since no other does. -/
theorem decode_of_row {r : Request} {row : OpcodeRow} (hmem : row ∈ opcodeTable) (hmatch : r.hdr &&& row.mask = row.pattern) :
    decode r = .ok (row.operation r) := by
  obtain ⟨before, after, htable⟩ := List.append_of_mem hmem
  have hdisjoint := opcodeTable_no_overlap
  rw [htable] at hdisjoint
  obtain ⟨-, -, hbefore⟩ := List.pairwise_append.1 hdisjoint
  refine decode_of_find (List.find?_eq_some_iff_append.2 ⟨(row.selects_iff _).2 hmatch, before, after, htable, ?_⟩)
  intro earlier hearlier
  have hnot : ¬ earlier.selects r.hdr = true := fun hsel =>
    hbefore earlier hearlier row List.mem_cons_self r.hdr ⟨(earlier.selects_iff _).1 hsel, hmatch⟩
  simpa using hnot

theorem decode_of_no_row {r : Request} (h : ∀ row ∈ opcodeTable, r.hdr &&& row.mask ≠ row.pattern) :
    decode r = .error (illegalReason r) := by
  have hnone : opcodeTable.find? (fun row => row.selects r.hdr) = none :=
    List.find?_eq_none.2 fun row hmem hsel => h row hmem ((row.selects_iff _).1 hsel)
  simp only [decode, hnone]

/-! ### Illegal headers (R73) -/

/-- R73: the three ways a header is illegal. -/
def IllegalHeader (hdr : Byte) : Prop :=
  9 < (hdr.extractLsb' 4 4).toNat ∨ hdr.extractLsb' 2 2 ≠ 0#2 ∨ (hdr.extractLsb' 0 2 ≠ 0#2 ∧ hdr.extractLsb' 4 4 ≠ 8#4)

/-- R70, R73: the rule on the header's fields agrees with the masks and patterns on each of the 256 headers. -/
theorem illegalHeader_iff_no_row (hdr : Byte) :
    IllegalHeader hdr ↔ ∀ row ∈ opcodeTable, hdr &&& row.mask ≠ row.pattern := by
  unfold IllegalHeader
  revert hdr
  decide +kernel

/-! ### Legal headers (R70) -/

/-- R70: the thirteen legal headers, each with the width of its operand. -/
inductive LegalHeader : Byte → Nat → Prop
  | rdCtrl : LegalHeader 0x00#8 0
  | wrCtrl : LegalHeader 0x10#8 8
  | decodeCh : LegalHeader 0x20#8 32
  | decodeFrame : LegalHeader 0x30#8 128
  | validate : LegalHeader 0x40#8 67
  | lux : LegalHeader 0x50#8 268
  | chroma : LegalHeader 0x60#8 268
  | cct : LegalHeader 0x70#8 268
  | readCh (c : Channel) : LegalHeader (0x80#8 ||| c.setWidth 8) 0
  | readFrame : LegalHeader 0x90#8 0

/-- R72: under READ_CH's pattern the two free bits are the channel. -/
theorem readCh_header_eq : ∀ hdr : Byte, hdr &&& 0xFC#8 = 0x80#8 → hdr = 0x80#8 ||| (hdr.extractLsb' 0 2).setWidth 8 := by
  decide +kernel

theorem legalHeader_of_operandWidth {hdr : Byte} {n : Nat} (h : Request.operandWidth hdr = some n) : LegalHeader hdr n := by
  unfold Request.operandWidth at h
  split_ifs at h with h0 h1 h2 h3 h4 h567 h8 h9 <;> cases h
  · exact h0 ▸ .rdCtrl
  · exact h1 ▸ .wrCtrl
  · exact h2 ▸ .decodeCh
  · exact h3 ▸ .decodeFrame
  · exact h4 ▸ .validate
  · rcases h567 with h5 | h6 | h7
    · exact h5 ▸ .lux
    · exact h6 ▸ .chroma
    · exact h7 ▸ .cct
  · rw [readCh_header_eq hdr h8]
    exact .readCh _
  · exact h9 ▸ .readFrame

/-! ### The operand's bits of arg (R65) -/

theorem Request.wf_iff (r : Request) :
    r.wf = true ↔ ∃ n, Request.operandWidth r.hdr = some n ∧ r.arg >>> n = 0#268 := by
  unfold Request.wf
  cases Request.operandWidth r.hdr <;> simp

/-- Args that agree on the low `n` bits carry the same operand of `n` bits. -/
theorem extractLsb'_low_congr {w n : Nat} {a b : BitVec w} (h : ∀ k < n, a.getLsbD k = b.getLsbD k) :
    a.extractLsb' 0 n = b.extractLsb' 0 n := by
  ext j hj
  simpa [BitVec.getElem_extractLsb'] using h j hj

/-- Nothing is lost when the low `n` bits are all that is set. -/
theorem setWidth_extractLsb'_low {w n : Nat} {v : BitVec w} (h : v >>> n = 0#w) : (v.extractLsb' 0 n).setWidth w = v := by
  apply BitVec.eq_of_getLsbD_eq
  intro j hj
  rw [BitVec.getLsbD_setWidth, BitVec.getLsbD_extractLsb', Nat.zero_add]
  by_cases hlow : j < n
  · simp [hj, hlow]
  · have hbit : (v >>> n).getLsbD (j - n) = v.getLsbD j := by
      rw [BitVec.getLsbD_ushiftRight, Nat.add_sub_of_le (Nat.le_of_not_lt hlow)]
    rw [← hbit, h]
    simp [hlow]

end Sys2Proof

namespace Sys2Proof.Proofs

open Sys2Proof.Machine

/-- Settles O4: each header selects its row, and the packings lose nothing. -/
theorem encodedOperationsDecodeBack : Obligations.EncodedOperationsDecodeBack := by
  intro i
  cases i with
  | rdCtrl => exact decode_rdCtrl _
  | wrCtrl v => rw [encode, decode_wrCtrl, extractLsb'_setWidth_low (by decide)]
  | decodeCh raw => rw [encode, decode_decodeCh, extractLsb'_setWidth_low (by decide), Raw4.unpack_pack]
  | decodeFrame raw => rw [encode, decode_decodeFrame, extractLsb'_setWidth_low (by decide), Raw16.unpack_pack]
  | validate sample => rw [encode, decode_validate, extractLsb'_setWidth_low (by decide), ChannelSample.unpack_pack]
  | lux frame => rw [encode, decode_lux, QuadChannelFrame.unpack_pack]
  | chroma frame => rw [encode, decode_chroma, QuadChannelFrame.unpack_pack]
  | cct frame => rw [encode, decode_cct, QuadChannelFrame.unpack_pack]
  | readCh c => exact decode_readCh c _
  | readFrame => exact decode_readFrame _

/-- Settles O5, header by header: with no stray bit the operand read is the whole of `arg`. -/
theorem decodedRequestsEncodeBack : Obligations.DecodedRequestsEncodeBack := by
  intro r hwf
  obtain ⟨hdr, arg⟩ := r
  obtain ⟨n, hwidth, hnarrow⟩ := (Request.wf_iff _).1 hwf
  dsimp only at hwidth hnarrow
  have hoperand := setWidth_extractLsb'_low hnarrow
  have hempty : arg >>> 0 = 0#268 → (0#268) = arg := fun h => by simpa using h.symm
  induction legalHeader_of_operandWidth hwidth with
  | rdCtrl => exact ⟨_, decode_rdCtrl arg, by rw [encode, hempty hnarrow]⟩
  | wrCtrl => exact ⟨_, decode_wrCtrl arg, by rw [encode, hoperand]⟩
  | decodeCh => exact ⟨_, decode_decodeCh arg, by rw [encode, Raw4.pack_unpack, hoperand]⟩
  | decodeFrame => exact ⟨_, decode_decodeFrame arg, by rw [encode, Raw16.pack_unpack, hoperand]⟩
  | validate => exact ⟨_, decode_validate arg, by rw [encode, ChannelSample.pack_unpack, hoperand]⟩
  | lux => exact ⟨_, decode_lux arg, by rw [encode, QuadChannelFrame.pack_unpack]⟩
  | chroma => exact ⟨_, decode_chroma arg, by rw [encode, QuadChannelFrame.pack_unpack]⟩
  | cct => exact ⟨_, decode_cct arg, by rw [encode, QuadChannelFrame.pack_unpack]⟩
  | readCh c => exact ⟨_, decode_readCh c arg, by rw [encode, hempty hnarrow]⟩
  | readFrame => exact ⟨_, decode_readFrame arg, by rw [encode, hempty hnarrow]⟩

/-- Settles O6, header by header: the decoder reads the operand's bits and no others. -/
theorem argBitsOutsideTheOperandAreIgnored : Obligations.ArgBitsOutsideTheOperandAreIgnored := by
  intro hdr a b n hwidth hagree
  have hoperand := extractLsb'_low_congr hagree
  induction legalHeader_of_operandWidth hwidth with
  | rdCtrl => rw [decode_rdCtrl, decode_rdCtrl]
  | wrCtrl => rw [decode_wrCtrl, decode_wrCtrl, hoperand]
  | decodeCh => rw [decode_decodeCh, decode_decodeCh, hoperand]
  | decodeFrame => rw [decode_decodeFrame, decode_decodeFrame, hoperand]
  | validate => rw [decode_validate, decode_validate, hoperand]
  | lux | chroma | cct => rw [BitVec.eq_of_getLsbD_eq hagree]
  | readCh c => rw [decode_readCh, decode_readCh]
  | readFrame => rw [decode_readFrame, decode_readFrame]

/-- Settles O1: the rows do not overlap, so the one that matches is the one found. -/
theorem opcodePatternsSelectOneOperation : Obligations.OpcodePatternsSelectOneOperation :=
  ⟨fun _ _ hmem hmatch => decode_of_row hmem hmatch, fun _ h => ⟨_, decode_of_no_row h⟩, opcodeTable_no_overlap⟩

/-- Settles O3 by running the decoder on the words. -/
theorem writtenOutRequestsDecode : Obligations.WrittenOutRequestsDecode := by
  refine ⟨?_, ?_, ?_, ?_, ?_, ⟨_, rfl, ?_, ?_, ?_⟩, ?_, ?_, ?_, ?_, ?_, ?_, ?_⟩
  all_goals decide +kernel

end Sys2Proof.Proofs
end

section
/-! SUPPORT. The family of 30_encoding.md, the packings (R66, R67) and the results (R68, R69). -/

namespace Sys2Proof

/-! ### Fields of a packing -/

theorem ChannelSample.eq_pack_of_unpack_eq {v : SampleBits} {s : ChannelSample} (h : ChannelSample.unpack v = s) :
    v = s.pack := by
  rw [← h, ChannelSample.pack_unpack]

theorem Raw4.eq_pack_of_unpack_eq {v : BitVec 32} {r : Raw4} (h : Raw4.unpack v = r) : v = r.pack := by
  rw [← h, Raw4.pack_unpack]

theorem ChannelSample.extractLsb'_pack (x : ChannelSample) :
    x.pack.extractLsb' 32 35 = x.code ∧ x.pack.extractLsb' 12 20 = x.mantissa ∧ x.pack.extractLsb' 8 4 = x.exponent ∧
      x.pack.extractLsb' 4 4 = x.sampleCounter ∧ x.pack.extractLsb' 0 4 = x.checksum := by
  have h := x.unpack_pack
  exact ⟨congrArg (·.code) h, congrArg (·.mantissa) h, congrArg (·.exponent) h, congrArg (·.sampleCounter) h,
    congrArg (·.checksum) h⟩

theorem QuadChannelFrame.extractLsb'_pack (f : QuadChannelFrame) :
    f.pack.extractLsb' 0 67 = f.ch0.pack ∧ f.pack.extractLsb' 67 67 = f.ch1.pack ∧
      f.pack.extractLsb' 134 67 = f.ch2.pack ∧ f.pack.extractLsb' 201 67 = f.ch3.pack := by
  have h := f.unpack_pack
  exact ⟨ChannelSample.eq_pack_of_unpack_eq (congrArg (·.ch0) h), ChannelSample.eq_pack_of_unpack_eq (congrArg (·.ch1) h),
    ChannelSample.eq_pack_of_unpack_eq (congrArg (·.ch2) h), ChannelSample.eq_pack_of_unpack_eq (congrArg (·.ch3) h)⟩

theorem Raw4.extractLsb'_pack (r : Raw4) :
    r.pack.extractLsb' 0 8 = r.b0 ∧ r.pack.extractLsb' 8 8 = r.b1 ∧ r.pack.extractLsb' 16 8 = r.b2 ∧
      r.pack.extractLsb' 24 8 = r.b3 := by
  have h := r.unpack_pack
  exact ⟨congrArg (·.b0) h, congrArg (·.b1) h, congrArg (·.b2) h, congrArg (·.b3) h⟩

theorem Raw16.extractLsb'_pack (r : Raw16) :
    r.pack.extractLsb' 0 32 = r.ch0.pack ∧ r.pack.extractLsb' 32 32 = r.ch1.pack ∧
      r.pack.extractLsb' 64 32 = r.ch2.pack ∧ r.pack.extractLsb' 96 32 = r.ch3.pack := by
  have h := r.unpack_pack
  exact ⟨Raw4.eq_pack_of_unpack_eq (congrArg (·.ch0) h), Raw4.eq_pack_of_unpack_eq (congrArg (·.ch1) h),
    Raw4.eq_pack_of_unpack_eq (congrArg (·.ch2) h), Raw4.eq_pack_of_unpack_eq (congrArg (·.ch3) h)⟩

end Sys2Proof

namespace Sys2Proof.Machine

/-! ### Where a binary64 result stands (R69) -/

theorem extractLsb'_f64Data (x : F64) : (f64Data x).extractLsb' 0 64 = x :=
  extractLsb'_setWidth_low (by decide) x

theorem extractLsb'_chromaData (x y : F64) :
    (chromaData x y).extractLsb' 0 64 = x ∧ (chromaData x y).extractLsb' 64 64 = y := by
  unfold chromaData
  rw [BitVec.extractLsb'_setWidth_of_le (by decide), BitVec.extractLsb'_setWidth_of_le (by decide)]
  exact ⟨BitVec.extractLsb'_append_eq_right, BitVec.extractLsb'_append_eq_left⟩

/-! ### The width of a result (R68, R69) -/

theorem checkedResponse_data (cfail : Nibble) (data : PortBits) : (checkedResponse cfail data).data = data := by
  unfold checkedResponse
  split <;> rfl

/-- No bit of `data` from `n` up is set. -/
def Response.FitsIn (r : Response) (n : Nat) : Prop := r.data >>> n = 0#268

theorem errorResponse_fitsIn (st : Status) (cfail : Nibble) (n : Nat) : (Response.mk st cfail 0#268).FitsIn n :=
  BitVec.zero_ushiftRight

theorem okResponse_fitsIn {n : Nat} (v : BitVec n) : (okResponse (v.setWidth 268)).FitsIn n :=
  Laws.EncodeWf.narrow v

theorem checkedResponse_fitsIn {n : Nat} (cfail : Nibble) (v : BitVec n) :
    (checkedResponse cfail (v.setWidth 268)).FitsIn n := by
  rw [Response.FitsIn, checkedResponse_data]
  exact Laws.EncodeWf.narrow v

theorem chromaResponse_fitsIn (r : Except DomainCause Chromaticity) : (chromaResponse r).FitsIn 128 := by
  cases r with
  | error cause => exact errorResponse_fitsIn ..
  | ok c => exact okResponse_fitsIn (c.y ++ c.x)

theorem cctResponse_fitsIn (r : Except DomainCause F64) : (cctResponse r).FitsIn 64 := by
  cases r with
  | error cause => exact errorResponse_fitsIn ..
  | ok cct => exact okResponse_fitsIn cct

/-- The one response a state gains is the response given. -/
theorem State.eq_of_respond_responses {s u : State} {r r' : Response} (hu : u.responses = s.responses)
    (h : (u.respond r').responses = s.responses ++ [r]) : r = r' := by
  rw [State.respond_responses, hu] at h
  simpa using h.symm

/-- A read answers with what is made of the bytes, or with an error's zeros. -/
theorem State.readThen_fitsIn {s : State} {i : Instr} {off : Byte} {count : BitVec 16} {k : List Byte → Response} {n : Nat}
    (hk : ∀ bytes, (k bytes).FitsIn n) {r : Response}
    (h : (s.readThen i off count k).responses = s.responses ++ [r]) : r.FitsIn n := by
  rcases s.readThen_cases i off count k with ⟨bytes, -, -, hread⟩ | ⟨-, hread⟩ | ⟨-, hread⟩
  · rw [hread] at h
    rw [State.eq_of_respond_responses (by simp) h]
    exact hk bytes
  · rw [hread] at h
    rw [State.eq_of_respond_responses (by simp) h]
    exact errorResponse_fitsIn ..
  · simp [hread] at h

/-- R69: a response an operation gives has no bit past the width of the operation's result. -/
theorem exec_response_fitsIn {i : Instr} {s t : State} {r : Response} (hexec : exec i s = .next t)
    (hresponses : t.responses = s.responses ++ [r]) : r.FitsIn (resultWidth i) := by
  have pure_case : ∀ {s' : State} {r' : Response}, s'.responses = s.responses → s'.respond r' = t →
      r'.FitsIn (resultWidth i) → r.FitsIn (resultWidth i) := by
    rintro s' r' hs rfl hfits
    rwa [State.eq_of_respond_responses hs hresponses]
  cases i with
  | rdCtrl => exact pure_case rfl (Host.Outcome.next.inj hexec) (okResponse_fitsIn s.ctrl)
  | wrCtrl v => exact pure_case (State.writeCtrl_responses s v) (Host.Outcome.next.inj hexec) (errorResponse_fitsIn ..)
  | decodeCh raw => exact pure_case rfl (Host.Outcome.next.inj hexec) (okResponse_fitsIn (ChannelSample.pack _))
  | decodeFrame raw => exact pure_case rfl (Host.Outcome.next.inj hexec) (Laws.EncodeWf.whole _)
  | validate sample =>
    exact pure_case rfl (Host.Outcome.next.inj hexec)
      (okResponse_fitsIn ((checksumOk s.build sample).2 ++ BitVec.ofBool (checksumOk s.build sample).1))
  | lux f => exact pure_case rfl (Host.Outcome.next.inj hexec) (okResponse_fitsIn (luxOf s.build f))
  | chroma f => exact pure_case rfl (Host.Outcome.next.inj hexec) (chromaResponse_fitsIn _)
  | cct f => exact pure_case rfl (Host.Outcome.next.inj hexec) (cctResponse_fitsIn _)
  | readCh c =>
    rw [← Host.Outcome.next.inj hexec] at hresponses
    exact State.readThen_fitsIn (fun bytes => checkedResponse_fitsIn _ (ChannelSample.pack _)) hresponses
  | readFrame =>
    rw [← Host.Outcome.next.inj hexec] at hresponses
    exact State.readThen_fitsIn (fun bytes => Laws.EncodeWf.whole _) hresponses

/-! ### The four numbers of DERIVE (R88) -/

/-- R14: the derived colour is what the three computations answer, and there is none where CHROMA or CCT fails. -/
theorem derivedColor_ok {b : Build} {f : QuadChannelFrame} {d : DerivedColor} (h : derivedColor b f = .ok d) :
    d.lux = luxOf b f ∧ chroma b.cal f = .ok ⟨d.x, d.y⟩ ∧ cctOf b.cal f = .ok d.cct := by
  unfold derivedColor at h
  rcases cctOf_cases b.cal f with ⟨cause, hchroma, -⟩ | ⟨c, hchroma, hcct⟩
  · rw [hchroma] at h
    cases h
  · rw [hchroma] at h
    cases hmccamy : mccamy c with
    | error cause => simp [hmccamy] at h
    | ok cct =>
      simp only [hmccamy, Except.ok.injEq] at h
      subst h
      exact ⟨rfl, hchroma, hcct.trans hmccamy⟩

theorem exec_lux (f : QuadChannelFrame) (s : State) :
    exec (.lux f) s = .next (s.respond ⟨.ok, 0#4, (luxOf s.build f).setWidth 268⟩) := rfl

theorem exec_chroma_of_ok {f : QuadChannelFrame} {s : State} {c : Chromaticity} (h : chroma s.build.cal f = .ok c) :
    exec (.chroma f) s = .next (s.respond ⟨.ok, 0#4, (c.y ++ c.x).setWidth 268⟩) := by
  rw [exec, execChroma, h]
  rfl

theorem exec_cct_of_ok {f : QuadChannelFrame} {s : State} {cct : F64} (h : cctOf s.build.cal f = .ok cct) :
    exec (.cct f) s = .next (s.respond ⟨.ok, 0#4, cct.setWidth 268⟩) := by
  rw [exec, execCct, h]
  rfl

end Sys2Proof.Machine

namespace Sys2Proof.Proofs

open Sys2Proof.Machine

/-- Settles O7: each packing is undone by its unpacking, which names the positions. -/
theorem packingsFollowTheTables : Obligations.PackingsFollowTheTables := by
  refine ⟨ChannelSample.extractLsb'_pack, QuadChannelFrame.extractLsb'_pack, Raw4.extractLsb'_pack, Raw16.extractLsb'_pack,
    fun arg => ⟨⟨_, decode_decodeCh arg, Raw4.pack_unpack _⟩, ⟨_, decode_decodeFrame arg, Raw16.pack_unpack _⟩⟩,
    fun x y => ?_⟩
  exact ⟨extractLsb'_f64Data x, extractLsb'_chromaData x y⟩

/-- Settles O46: each result is placed in the low bits of `data`, and an error's data is zero. -/
theorem unusedDataBitsAreZero : Obligations.UnusedDataBitsAreZero :=
  fun _ _ _ _ hexec hresponses => exec_response_fitsIn hexec hresponses

/-- Settles O53: no operation changes the build, so the three compute on the same matrix. -/
theorem deriveAssemblesTheDerivedColor : Obligations.DeriveAssemblesTheDerivedColor := by
  refine ⟨fun f => rfl, fun f d s h => ?_⟩
  obtain ⟨hlux, hchroma, hcct⟩ := derivedColor_ok h
  refine ⟨_, _, _, exec_lux f s, exec_chroma_of_ok hchroma, exec_cct_of_ok hcct, ?_⟩
  simp [State.respond, hlux]

end Sys2Proof.Proofs
end

section
/-! SUPPORT. The family of 30_encoding.md, the step: an idle block that takes a request (R71, R73), and the invariant that
every step keeps (R68, R40, R30, R9). -/

namespace Sys2Proof.Machine

/-! ### An idle block takes a request -/

theorem State.fetch_idle_request {s : State} {r : Request} {rest : List PortEvent} (hidle : s.busy = none)
    (hin : s.inbox = .request r :: rest) : s.fetch = { s with inbox := rest }.accept r := by
  rw [State.fetch_request hin, hidle]
  rfl

theorem step_of_decode_ok {s : State} {r : Request} {rest : List PortEvent} {i : Instr} (hidle : s.busy = none)
    (hin : s.inbox = .request r :: rest) (hdec : decode r = .ok i) : step s = exec i { s with inbox := rest } := by
  rw [step, State.fetch_idle_request hidle hin, State.accept_ok hdec]

theorem step_of_decode_error {s : State} {r : Request} {rest : List PortEvent} {e : DecodeError} (hidle : s.busy = none)
    (hin : s.inbox = .request r :: rest) (hdec : decode r = .error e) :
    step s = .next ({ s with inbox := rest }.raise .illegalOp) := by
  rw [step, State.fetch_idle_request hidle hin, State.accept_error hdec]

theorem decode_of_decodeTableWord {nbits w : Nat} {i : Instr} (h : decodeTableWord nbits w = some i) :
    decode (Request.ofTableWord nbits w) = .ok i := by
  unfold decodeTableWord at h
  cases hdec : decode (Request.ofTableWord nbits w) with
  | error e => simp [hdec] at h
  | ok j => simpa [hdec] using h

/-! ### Each state operation keeps the invariant -/

theorem State.Inv.takeEvent {s : State} (h : s.Inv) (rest : List PortEvent) : State.Inv { s with inbox := rest } :=
  ⟨h.build_wf, h.responses_legal, h.transactions_legal, h.busy_reads⟩

theorem State.Inv.writeCtrl {s : State} (h : s.Inv) (v : Byte) : (s.writeCtrl v).Inv :=
  ⟨h.build_wf, h.responses_legal, h.transactions_legal, h.busy_reads⟩

theorem State.Inv.respond {s : State} (h : s.Inv) {r : Response} (hr : r.Legal) : (s.respond r).Inv where
  build_wf := h.build_wf
  responses_legal := by
    intro r' hmem
    rcases List.mem_append.1 hmem with hold | hnew
    · exact h.responses_legal r' hold
    · rwa [List.mem_singleton.1 hnew]
  transactions_legal := h.transactions_legal
  busy_reads := h.busy_reads

theorem State.Inv.issue {s : State} (h : s.Inv) {t : Transaction} (ht : Transaction.Legal s.build t) : (s.issue t).Inv where
  build_wf := h.build_wf
  responses_legal := h.responses_legal
  transactions_legal := by
    intro t' hmem
    rcases List.mem_append.1 hmem with hold | hnew
    · exact h.transactions_legal t' hold
    · rwa [List.mem_singleton.1 hnew]
  busy_reads := h.busy_reads

theorem State.Inv.hang {s : State} (h : s.Inv) {i : Instr} (hi : waitsOnTransport i) : (s.hang i).Inv where
  build_wf := h.build_wf
  responses_legal := h.responses_legal
  transactions_legal := h.transactions_legal
  busy_reads := by
    intro j hj
    rwa [← Option.some.inj hj]

theorem State.Inv.pinReset {s : State} (h : s.Inv) : s.pinReset.Inv where
  build_wf := h.build_wf
  responses_legal := h.responses_legal
  transactions_legal := h.transactions_legal
  busy_reads := by
    intro j hj
    simp at hj

/-- Whatever operation runs, it adds legal responses and transactions only, and only a read is left waiting. -/
theorem State.Inv.of_exec {i : Instr} {s t : State} (h : s.Inv) (hexec : exec i s = .next t) : t.Inv := by
  rcases exec_cases hexec with ⟨v, -, rfl⟩ | ⟨-, -, r, hr, rfl⟩ | ⟨hwaits, off, n, hread, rfl | ⟨r, hr, rfl⟩⟩
  · exact (h.writeCtrl v).respond (okResponse_legal _)
  · exact h.respond hr
  · exact (h.issue hread).hang hwaits
  · exact (h.issue hread).respond hr

end Sys2Proof.Machine

namespace Sys2Proof.Proofs

open Sys2Proof.Machine

/-- Settles O55, by what a step can do. -/
theorem everyStepKeepsTheInvariant : Obligations.EveryStepKeepsTheInvariant := by
  intro s t h hstep
  rcases step_cases hstep with ⟨-, -, rfl⟩ | ⟨rest, -, rfl⟩ | ⟨r, rest, -, -, rfl⟩ | ⟨r, rest, e, -, -, -, rfl⟩ |
    ⟨r, rest, i, -, -, -, hexec⟩
  · exact h
  · exact (h.takeEvent rest).pinReset
  · exact h.takeEvent rest
  · exact (h.takeEvent rest).respond ⟨rfl, rfl⟩
  · exact (h.takeEvent rest).of_exec hexec

/-- Settles O2: the headers R73 names are those that no row matches. -/
theorem illegalHeadersAnswerIllegalOp : Obligations.IllegalHeadersAnswerIllegalOp := by
  intro r
  constructor
  · intro hillegal s rest hidle hin
    exact step_of_decode_error hidle hin (decode_of_no_row ((illegalHeader_iff_no_row r.hdr).1 hillegal))
  · intro hlegal
    have hsome := mt (illegalHeader_iff_no_row r.hdr).2 hlegal
    push Not at hsome
    obtain ⟨row, hmem, hmatch⟩ := hsome
    exact ⟨_, decode_of_row hmem hmatch⟩

/-- Settles O54: `withFetchWord` leaves an idle block with the request in front. -/
theorem stepRunsTheDecodedOperation : Obligations.StepRunsTheDecodedOperation := by
  refine ⟨fun s r rest i hidle hin hdec => step_of_decode_ok hidle hin hdec, fun s nbits w i h => ?_⟩
  exact step_of_decode_ok (s.present_busy _) (s.present_inbox _) (decode_of_decodeTableWord h)

end Sys2Proof.Proofs
end

section
/-! SUPPORT. The family of 40_decode.md: the Sample Decoder (R90 to R98) and where its results stand in `data` (R69). -/

namespace Sys2Proof

/-! ### Cutting fields from a word -/

/-- A cut that reaches exactly `k` bits past the low part. -/
theorem extractLsb'_append_low_add {v w : Nat} (hi : BitVec v) (lo : BitVec w) (k : Nat) :
    (hi ++ lo).extractLsb' 0 (k + w) = hi.extractLsb' 0 k ++ lo := by
  rw [← BitVec.extractLsb'_append_extractLsb'_eq_extractLsb' (start₂ := w) (Nat.zero_add w).symm,
    BitVec.extractLsb'_append_eq_of_le (Nat.le_refl w), BitVec.extractLsb'_append_eq_right, Nat.sub_self]

/-- Past its own width a widened word is zero. -/
theorem extractLsb'_setWidth_high {n w start len : Nat} (hn : n ≤ start) (hw : start + len ≤ w) (v : BitVec n) :
    (v.setWidth w).extractLsb' start len = 0#len := by
  rw [BitVec.extractLsb'_setWidth_of_le hw]
  ext j hj
  rw [BitVec.getElem_extractLsb', BitVec.getLsbD_of_ge _ _ (by omega), BitVec.getElem_zero]

/-! ### The raw operand in `arg` (R67) -/

theorem Raw4.unpack_extractLsb' {w : Nat} (v : BitVec w) :
    Raw4.unpack (v.extractLsb' 0 32) =
      ⟨v.extractLsb' 0 8, v.extractLsb' 8 8, v.extractLsb' 16 8, v.extractLsb' 24 8⟩ := by
  simp [Raw4.unpack, BitVec.extractLsb'_extractLsb'_of_le]

theorem Raw16.unpack_extractLsb' {w : Nat} (v : BitVec w) :
    Raw16.unpack (v.extractLsb' 0 128) =
      ⟨Raw4.unpack (v.extractLsb' 0 32), Raw4.unpack (v.extractLsb' 32 32),
        Raw4.unpack (v.extractLsb' 64 32), Raw4.unpack (v.extractLsb' 96 32)⟩ := by
  simp [Raw16.unpack, BitVec.extractLsb'_extractLsb'_of_le]

end Sys2Proof

namespace Sys2Proof.Machine

/-! ### The code (R92) -/

/-- R92, R93: 35 bits hold the product for the largest mantissa and exponent, so nothing is cut off. -/
theorem codeOf_toNat (m : Mantissa) (e : Nibble) : (codeOf m e).toNat = m.toNat * 2 ^ e.toNat := by
  have hproduct : m.toNat * 2 ^ e.toNat < 2 ^ 35 :=
    calc m.toNat * 2 ^ e.toNat
      _ < 2 ^ 20 * 2 ^ e.toNat := Nat.mul_lt_mul_of_pos_right m.isLt (Nat.two_pow_pos _)
      _ ≤ 2 ^ 20 * 2 ^ 15 := Nat.mul_le_mul_left _ (Nat.pow_le_pow_right (by decide) (Nat.le_of_lt_succ e.isLt))
      _ = 2 ^ 35 := by decide
  rw [codeOf, BitVec.toNat_shiftLeft, BitVec.toNat_setWidth_of_le (by decide), Nat.shiftLeft_eq,
    Nat.mod_eq_of_lt hproduct]

/-- R98: raising the exponent shifts the code. -/
theorem codeOf_toNat_eq_shiftLeft (m : Mantissa) {e1 e2 : Nibble} (h : e1.toNat ≤ e2.toNat) :
    (codeOf m e2).toNat = (codeOf m e1).toNat <<< (e2.toNat - e1.toNat) := by
  rw [codeOf_toNat, codeOf_toNat, Nat.shiftLeft_eq, Nat.mul_assoc, ← Nat.pow_add, Nat.add_sub_of_le h]

/-! ### The fields of a decoded sample (R90, R91) -/

theorem decodeSample_code_toNat (order : ByteOrder) (raw : Raw4) :
    (decodeSample order raw).code.toNat =
      (decodeSample order raw).mantissa.toNat * 2 ^ (decodeSample order raw).exponent.toNat :=
  codeOf_toNat _ _

theorem decodeSample_big_fields (b0 b1 b2 b3 : Byte) :
    (decodeSample .big ⟨b0, b1, b2, b3⟩).exponent = b0.extractLsb' 4 4 ∧
      (decodeSample .big ⟨b0, b1, b2, b3⟩).mantissa = b0.extractLsb' 0 4 ++ b1 ++ b2 ∧
      (decodeSample .big ⟨b0, b1, b2, b3⟩).sampleCounter = b3.extractLsb' 4 4 ∧
      (decodeSample .big ⟨b0, b1, b2, b3⟩).checksum = b3.extractLsb' 0 4 := by
  refine ⟨?exponent, ?mantissa, ?sampleCounter, ?checksum⟩
  case exponent => exact BitVec.extractLsb'_append_eq_of_le (by decide)
  case mantissa =>
    exact congrArg₂ (· ++ ·) (extractLsb'_append_low_add b0 b1 4) BitVec.extractLsb'_append_eq_left
  case sampleCounter => exact BitVec.extractLsb'_append_eq_of_add_le (by decide)
  case checksum => exact BitVec.extractLsb'_append_eq_of_add_le (by decide)

/-! ### Where a sample stands in `data` (R69) -/

theorem extractLsb'_sampleData_pack (x : ChannelSample) : (sampleData x).extractLsb' 0 67 = x.pack :=
  extractLsb'_setWidth_low (by decide) x.pack

theorem extractLsb'_sampleData (x : ChannelSample) :
    (sampleData x).extractLsb' 32 35 = x.code ∧ (sampleData x).extractLsb' 12 20 = x.mantissa ∧
      (sampleData x).extractLsb' 8 4 = x.exponent ∧ (sampleData x).extractLsb' 4 4 = x.sampleCounter ∧
      (sampleData x).extractLsb' 0 4 = x.checksum := by
  simp only [sampleData, BitVec.extractLsb'_setWidth_of_le, Nat.reduceAdd, Nat.reduceLeDiff]
  exact x.extractLsb'_pack

theorem extractLsb'_sampleData_unused (x : ChannelSample) : (sampleData x).extractLsb' 67 201 = 0#201 :=
  extractLsb'_setWidth_high (by decide) (by decide) x.pack

/-! ### The two operations (R95, R96) -/

theorem exec_decodeCh (raw : Raw4) (s : State) :
    exec (.decodeCh raw) s = .next (s.respond ⟨.ok, 0#4, sampleData (decodeSample s.build.byteOrder raw)⟩) := rfl

theorem exec_decodeFrame (raw : Raw16) (s : State) :
    exec (.decodeFrame raw) s = .next (s.respond ⟨.ok, 0#4, (decodeQuad s.build.byteOrder raw).pack⟩) := rfl

end Sys2Proof.Machine

namespace Sys2Proof.Proofs

open Sys2Proof.Machine

/-- Settles O11: the fields are those of the decoded sample; the little-endian ones are the big-endian ones of the
swapped block (O14). -/
theorem decodeChReturnsTheFields : Obligations.DecodeChReturnsTheFields := by
  refine ⟨fun arg => by rw [decode_decodeCh, Raw4.unpack_extractLsb'], fun b0 b1 b2 b3 s => ⟨_, exec_decodeCh _ s, ?_⟩⟩
  obtain ⟨hcode, hmantissa, hexponent, hcounter, hchecksum⟩ :=
    extractLsb'_sampleData (decodeSample s.build.byteOrder ⟨b0, b1, b2, b3⟩)
  rw [hcode, hmantissa, hexponent, hcounter, hchecksum]
  refine ⟨fun hbig => ?_, fun hlittle => ?_, decodeSample_code_toNat _ _, extractLsb'_sampleData_unused _⟩
  · rw [hbig]
    exact decodeSample_big_fields b0 b1 b2 b3
  · obtain ⟨-, hswap, -⟩ := littleEndianSwapsBytesInsideRegisters
    rw [hlittle, hswap]
    exact decodeSample_big_fields b1 b0 b3 b2

/-- Settles O12: the frame packs the four decodings side by side. -/
theorem decodeFrameIsFourDecodings : Obligations.DecodeFrameIsFourDecodings := by
  refine ⟨fun arg => by rw [decode_decodeFrame, Raw16.unpack_extractLsb'], fun r0 r1 r2 r3 s =>
    ⟨_, _, _, _, _, exec_decodeFrame _ s, exec_decodeCh r0 s, exec_decodeCh r1 s, exec_decodeCh r2 s, exec_decodeCh r3 s, ?_⟩⟩
  simp only [extractLsb'_sampleData_pack]
  exact QuadChannelFrame.extractLsb'_pack (decodeQuad s.build.byteOrder ⟨r0, r1, r2, r3⟩)

/-- Settles O13: both parts follow from the exact product. -/
theorem codeScalingLaw : Obligations.CodeScalingLaw :=
  ⟨fun m _ _ h => codeOf_toNat_eq_shiftLeft m h.le, codeOf_toNat 0xFFFFF#20 15#4⟩

end Sys2Proof.Proofs
end

section
/-! SUPPORT. The family of 41_checksum.md: the computed checksum is linear in its vector (R112), so that a flipped bit toggles
the rows that cover it (R118), and where the result of VALIDATE stands in `data` (R69, R116). -/

namespace Sys2Proof

/-! ### One flipped bit of a concatenation -/

theorem xor_twoPow_append {v w i : Nat} (hi : BitVec v) (lo : BitVec w) :
    (hi ^^^ BitVec.twoPow v i) ++ lo = (hi ++ lo) ^^^ BitVec.twoPow (v + w) (w + i) := by
  apply BitVec.eq_of_getLsbD_eq
  intro j hj
  simp only [BitVec.getLsbD_append, BitVec.getLsbD_xor, BitVec.getLsbD_twoPow]
  grind

theorem append_xor_twoPow {v w i : Nat} (hi : BitVec v) (lo : BitVec w) (h : i < w) :
    hi ++ (lo ^^^ BitVec.twoPow w i) = (hi ++ lo) ^^^ BitVec.twoPow (v + w) i := by
  apply BitVec.eq_of_getLsbD_eq
  intro j hj
  simp only [BitVec.getLsbD_append, BitVec.getLsbD_xor, BitVec.getLsbD_twoPow]
  grind

/-! ### The sample in `arg` (R66) -/

theorem ChannelSample.unpack_extractLsb' {w : Nat} (v : BitVec w) :
    ChannelSample.unpack (v.extractLsb' 0 67) =
      ⟨v.extractLsb' 32 35, v.extractLsb' 12 20, v.extractLsb' 8 4, v.extractLsb' 4 4, v.extractLsb' 0 4⟩ := by
  simp [ChannelSample.unpack, BitVec.extractLsb'_extractLsb'_of_le]

end Sys2Proof

namespace Sys2Proof.Machine

/-! ### Parity is linear (R11) -/

theorem parityBelow_xor {w : Nat} (a b : BitVec w) (n : Nat) :
    parityBelow (a ^^^ b) n = (parityBelow a n ^^ parityBelow b n) := by
  induction n with
  | zero => rfl
  | succ n ih =>
    rw [parityBelow, ih, BitVec.getLsbD_xor, Bool.xor_assoc, Bool.xor_left_comm (b.getLsbD n), ← Bool.xor_assoc]
    rfl

theorem parityBelow_twoPow_and {w : Nat} (mask : BitVec w) (i n : Nat) :
    parityBelow (BitVec.twoPow w i &&& mask) n = (decide (i < n) && mask.getLsbD i) := by
  induction n with
  | zero => simp [parityBelow]
  | succ n ih =>
    rw [parityBelow, ih, BitVec.getLsbD_and, BitVec.getLsbD_twoPow]
    rcases Nat.lt_trichotomy i n with hlt | rfl | hgt
    · simp [hlt, hlt.ne, Nat.lt_succ_of_lt hlt]
    · cases hbit : mask.getLsbD i with
      | false => simp
      | true => simp [BitVec.lt_of_getLsbD hbit]
    · simp [hgt.ne', Nat.not_lt.2 hgt.le, Nat.not_lt.2 hgt]

theorem parity_xor {w : Nat} (a b : BitVec w) : parity (a ^^^ b) = (parity a ^^ parity b) :=
  parityBelow_xor a b w

/-- The parity of one bit under a mask says whether the mask covers it. -/
theorem parity_twoPow_and {w : Nat} (mask : BitVec w) (i : Nat) :
    parity (BitVec.twoPow w i &&& mask) = mask.getLsbD i := by
  rw [parity, parityBelow_twoPow_and]
  cases hbit : mask.getLsbD i with
  | false => simp
  | true => simp [BitVec.lt_of_getLsbD hbit]

theorem parity_flip_and {w : Nat} (v mask : BitVec w) (i : Nat) :
    parity ((v ^^^ BitVec.twoPow w i) &&& mask) = (parity (v &&& mask) ^^ mask.getLsbD i) := by
  have hdistrib : (v ^^^ BitVec.twoPow w i) &&& mask = (v &&& mask) ^^^ (BitVec.twoPow w i &&& mask) := by
    ext j hj
    simp only [BitVec.getElem_and, BitVec.getElem_xor, Bool.and_xor_distrib_right]
  rw [hdistrib, parity_xor, parity_twoPow_and]

/-! ### The computed checksum (R112) -/

/-- Four bits side by side, as `X[3:0]` is put together. -/
def nibbleOfBits (x3 x2 x1 x0 : Bool) : Nibble :=
  BitVec.ofBool x3 ++ BitVec.ofBool x2 ++ BitVec.ofBool x1 ++ BitVec.ofBool x0

theorem nibbleOfBits_getLsbD : ∀ x3 x2 x1 x0 : Bool,
    (nibbleOfBits x3 x2 x1 x0).getLsbD 0 = x0 ∧ (nibbleOfBits x3 x2 x1 x0).getLsbD 1 = x1 ∧
      (nibbleOfBits x3 x2 x1 x0).getLsbD 2 = x2 ∧ (nibbleOfBits x3 x2 x1 x0).getLsbD 3 = x3 := by
  decide

theorem nibbleOfBits_xor (x3 x2 x1 x0 y3 y2 y1 y0 : Bool) :
    nibbleOfBits (x3 ^^ y3) (x2 ^^ y2) (x1 ^^ y1) (x0 ^^ y0) = nibbleOfBits x3 x2 x1 x0 ^^^ nibbleOfBits y3 y2 y1 y0 := by
  simp only [nibbleOfBits, ← BitVec.ofBool_xor_ofBool, ← BitVec.xor_append]

theorem nibbleOfBits_beq_one : ∀ x3 x2 x1 : Bool,
    (nibbleOfBits x3 x2 x1 true == BitVec.twoPow 4 0) = (!x1 && !x2 && !x3) := by
  decide

theorem computedChecksum_eq (map : CsumMap) (v : ParityVector) :
    computedChecksum map v = nibbleOfBits (parity (v &&& map.row3)) (parity (v &&& map.row2)) (parity (v &&& map.row1))
      (parity (v &&& map.row0)) := rfl

theorem computedChecksum_getLsbD (map : CsumMap) (v : ParityVector) :
    (computedChecksum map v).getLsbD 0 = parity (v &&& map.row0) ∧
      (computedChecksum map v).getLsbD 1 = parity (v &&& map.row1) ∧
      (computedChecksum map v).getLsbD 2 = parity (v &&& map.row2) ∧
      (computedChecksum map v).getLsbD 3 = parity (v &&& map.row3) :=
  nibbleOfBits_getLsbD ..

/-- Which of the four rows cover bit `i` of `V`. -/
def coveringRows (map : CsumMap) (i : Nat) : Nibble :=
  nibbleOfBits (map.row3.getLsbD i) (map.row2.getLsbD i) (map.row1.getLsbD i) (map.row0.getLsbD i)

/-- R118: one flipped bit of `V` toggles the bits of `X` whose rows cover it. -/
theorem computedChecksum_flip (map : CsumMap) (v : ParityVector) (i : Nat) :
    computedChecksum map (v ^^^ BitVec.twoPow 28 i) = computedChecksum map v ^^^ coveringRows map i := by
  simp only [computedChecksum_eq, coveringRows, parity_flip_and, nibbleOfBits_xor]

theorem coveringRows_getLsbD_zero (map : CsumMap) (i : Nat) : (coveringRows map i).getLsbD 0 = map.row0.getLsbD i :=
  And.left (nibbleOfBits_getLsbD ..)

/-- R9: under a legal map row 0 covers every bit of `V`. -/
theorem row0_getLsbD_of_csumRowFull {b : Build} (hfull : b.csumRowFull = true) {i : Nat} (hi : i < 28) :
    b.csumMap.row0.getLsbD i = true := by
  rw [eq_of_beq hfull, show 0xFFFFFFF#28 = BitVec.allOnes 28 from rfl, BitVec.getLsbD_allOnes, decide_eq_true hi]

/-- A toggle that leaves bit 0 is not that of a flip of `V`. -/
theorem coveringRows_beq_of_even {b : Build} (hfull : b.csumRowFull = true) {i : Nat} (hi : i < 28) {u : Nibble}
    (hu : u.getLsbD 0 = false) : (coveringRows b.csumMap i == u) = false := by
  refine beq_false_of_ne fun heq => ?_
  have hbit := (coveringRows_getLsbD_zero b.csumMap i).trans (row0_getLsbD_of_csumRowFull hfull hi)
  rw [heq, hu] at hbit
  exact Bool.false_ne_true hbit

/-! ### Flips of a sample's fields in `V` (R110, R111) -/

theorem thirdField_eq_ite (src : CsumSource) (x : ChannelSample) :
    thirdField src x = if src = .counter then x.sampleCounter else x.checksum := by
  cases src <;> rfl

theorem parityVector_flip_mantissa (src : CsumSource) (x : ChannelSample) {i : Nat} (hi : i < 20) :
    parityVector src { x with mantissa := x.mantissa ^^^ BitVec.twoPow 20 i } =
      parityVector src x ^^^ BitVec.twoPow 28 (4 + i) := by
  have hthird : thirdField src { x with mantissa := x.mantissa ^^^ BitVec.twoPow 20 i } = thirdField src x := by
    cases src <;> rfl
  rw [parityVector, hthird, append_xor_twoPow _ _ hi, xor_twoPow_append, parityVector]

theorem parityVector_flip_exponent (src : CsumSource) (x : ChannelSample) (i : Nat) :
    parityVector src { x with exponent := x.exponent ^^^ BitVec.twoPow 4 i } =
      parityVector src x ^^^ BitVec.twoPow 28 (24 + i) := by
  have hthird : thirdField src { x with exponent := x.exponent ^^^ BitVec.twoPow 4 i } = thirdField src x := by
    cases src <;> rfl
  rw [parityVector, hthird, xor_twoPow_append, xor_twoPow_append, ← Nat.add_assoc, parityVector]

theorem parityVector_flip_counter (x : ChannelSample) {i : Nat} (hi : i < 4) :
    parityVector .counter { x with sampleCounter := x.sampleCounter ^^^ BitVec.twoPow 4 i } =
      parityVector .counter x ^^^ BitVec.twoPow 28 i :=
  append_xor_twoPow (x.exponent ++ x.mantissa) x.sampleCounter hi

theorem parityVector_flip_checksum (x : ChannelSample) {i : Nat} (hi : i < 4) :
    parityVector .checksum { x with checksum := x.checksum ^^^ BitVec.twoPow 4 i } =
      parityVector .checksum x ^^^ BitVec.twoPow 28 i :=
  append_xor_twoPow (x.exponent ++ x.mantissa) x.checksum hi

/-! ### What the check does not read (R110, R116) -/

theorem parityVector_checksum_of_counter {src : CsumSource} (hsrc : src = .counter) (x : ChannelSample) (k : Nibble) :
    parityVector src { x with checksum := k } = parityVector src x := by
  subst hsrc
  rfl

theorem checksumOk_sampleCounter_of_checksum {b : Build} (hsrc : b.csumSource = .checksum) (x : ChannelSample) (cnt : Nibble) :
    checksumOk b { x with sampleCounter := cnt } = checksumOk b x := by
  rw [checksumOk, checksumOk, hsrc]
  rfl

theorem checksumOk_code (b : Build) (x : ChannelSample) (code : Code) :
    checksumOk b { x with code := code } = checksumOk b x := by
  rw [checksumOk, checksumOk, parityVector, parityVector, thirdField_eq_ite, thirdField_eq_ite]

/-! ### When a match survives a change (R114) -/

/-- Toggled on both sides, a match survives exactly when the toggles are the same. -/
theorem checksumOk_of_toggled {b : Build} {x y : ChannelSample} {t u : Nibble} (hmatch : (checksumOk b x).1 = true)
    (hX : computedChecksum b.csumMap (parityVector b.csumSource y) =
      computedChecksum b.csumMap (parityVector b.csumSource x) ^^^ t)
    (hK : y.checksum = x.checksum ^^^ u) : (checksumOk b y).1 = (t == u) := by
  have hx : computedChecksum b.csumMap (parityVector b.csumSource x) = x.checksum := eq_of_beq hmatch
  rw [checksumOk, hX, hx, hK, Bool.beq_eq_decide_eq, Bool.beq_eq_decide_eq, decide_eq_decide, BitVec.xor_right_inj]

/-- A match survives one flipped bit of `V` exactly when the transmitted checksum is toggled as `X` is. -/
theorem checksumOk_of_flip {b : Build} {x y : ChannelSample} {i : Nat} {u : Nibble} (hmatch : (checksumOk b x).1 = true)
    (hV : parityVector b.csumSource y = parityVector b.csumSource x ^^^ BitVec.twoPow 28 i)
    (hK : y.checksum = x.checksum ^^^ u) : (checksumOk b y).1 = (coveringRows b.csumMap i == u) :=
  checksumOk_of_toggled hmatch (by rw [hV, computedChecksum_flip]) hK

/-- R118: one flipped bit of `V` is a mismatch unless bit 0 of the transmitted checksum is flipped with it. -/
theorem checksumOk_false_of_flip {b : Build} (hfull : b.csumRowFull = true) {x y : ChannelSample} {i : Nat} {u : Nibble}
    (hmatch : (checksumOk b x).1 = true) (hi : i < 28)
    (hV : parityVector b.csumSource y = parityVector b.csumSource x ^^^ BitVec.twoPow 28 i)
    (hK : y.checksum = x.checksum ^^^ u) (hu : u.getLsbD 0 = false) : (checksumOk b y).1 = false :=
  (checksumOk_of_flip hmatch hV hK).trans (coveringRows_beq_of_even hfull hi hu)

/-! ### VALIDATE (R116) and where its result stands in `data` (R69) -/

theorem exec_validate (x : ChannelSample) (s : State) :
    exec (.validate x) s =
      .next (s.respond ⟨.ok, 0#4, validateData (checksumOk s.build x).1 (checksumOk s.build x).2⟩) := rfl

theorem extractLsb'_validateData (isMatch : Bool) (computed : Nibble) :
    (validateData isMatch computed).extractLsb' 1 4 = computed := by
  rw [validateData, BitVec.extractLsb'_setWidth_of_le (by decide)]
  exact BitVec.extractLsb'_append_eq_left

theorem extractLsb'_validateData_unused (isMatch : Bool) (computed : Nibble) :
    (validateData isMatch computed).extractLsb' 5 263 = 0#263 :=
  extractLsb'_setWidth_high (by decide) (by decide) _

theorem validateData_getLsbD_zero (isMatch : Bool) (computed : Nibble) :
    (validateData isMatch computed).getLsbD 0 = isMatch := by
  rw [validateData, BitVec.getLsbD_setWidth, BitVec.getLsbD_append]
  simp

theorem validateData_getLsbD_succ (isMatch : Bool) (computed : Nibble) {i : Nat} (hi : i < 4) :
    (validateData isMatch computed).getLsbD (1 + i) = computed.getLsbD i := by
  conv_rhs => rw [← extractLsb'_validateData isMatch computed, BitVec.getLsbD_extractLsb', decide_eq_true hi, Bool.true_and]

end Sys2Proof.Machine

namespace Sys2Proof.Proofs

open Sys2Proof.Machine

/-- Settles O16: the four parities and the match, placed side by side in `data`. -/
theorem validateReportsTheComputedChecksum : Obligations.ValidateReportsTheComputedChecksum := by
  refine ⟨fun arg => by rw [decode_validate, ChannelSample.unpack_extractLsb'], fun code m e cnt k s =>
    ⟨_, exec_validate _ s, fun V hV => ?bits, ?isMatch, extractLsb'_validateData_unused _ _, fun code' => ?code⟩⟩
  case bits =>
    have hvector : parityVector s.build.csumSource ⟨code, m, e, cnt, k⟩ = V := by
      rw [hV, parityVector, thirdField_eq_ite]
    obtain ⟨h0, h1, h2, h3⟩ := computedChecksum_getLsbD s.build.csumMap V
    rw [checksumOk, hvector]
    exact ⟨(validateData_getLsbD_succ _ _ (by decide)).trans h0, (validateData_getLsbD_succ _ _ (by decide)).trans h1,
      (validateData_getLsbD_succ _ _ (by decide)).trans h2, (validateData_getLsbD_succ _ _ (by decide)).trans h3⟩
  case isMatch =>
    rw [validateData_getLsbD_zero, extractLsb'_validateData]
    exact Bool.beq_eq_decide_eq _ _
  case code =>
    have hunread := checksumOk_code s.build ⟨code, m, e, cnt, k⟩ code'
    rw [exec_validate, exec_validate, hunread]

/-- Settles O17: row 0 covers every bit of `V`, so a flip there toggles `X[0]`, which only a flip of `K[0]` can make up for. -/
theorem singleBitFlipsAreDetected : Obligations.SingleBitFlipsAreDetected := by
  intro b x hfull hmatch
  have hsame : x.checksum = x.checksum ^^^ 0#4 := BitVec.xor_zero.symm
  refine ⟨fun i hi => ?mantissa, fun i hi => ?exponent, fun hsrc i hi => ⟨?counter, ?transmitted⟩,
    fun hsrc => ⟨fun i hi hpos => ?high, ?low, fun cnt => ?unread⟩⟩
  case mantissa =>
    exact checksumOk_false_of_flip hfull hmatch (by omega) (parityVector_flip_mantissa _ x hi) hsame rfl
  case exponent =>
    exact checksumOk_false_of_flip hfull hmatch (by omega) (parityVector_flip_exponent _ x i) hsame rfl
  case counter =>
    exact checksumOk_false_of_flip hfull hmatch (by omega) (hsrc ▸ parityVector_flip_counter x hi) hsame rfl
  case transmitted =>
    have htoggle : ∀ j < 4, BitVec.twoPow 4 j ≠ 0#4 := by decide
    have hvector := parityVector_checksum_of_counter hsrc x (x.checksum ^^^ BitVec.twoPow 4 i)
    rw [checksumOk_of_toggled (t := 0#4) hmatch (by rw [hvector, BitVec.xor_zero]) rfl]
    exact beq_false_of_ne (htoggle i hi).symm
  case high =>
    exact checksumOk_false_of_flip hfull hmatch (by omega) (hsrc ▸ parityVector_flip_checksum x hi) rfl
      (by simpa using Nat.ne_of_lt hpos)
  case low =>
    rw [checksumOk_of_flip hmatch (hsrc ▸ parityVector_flip_checksum x (by decide)) rfl, coveringRows,
      row0_getLsbD_of_csumRowFull hfull (by decide)]
    exact nibbleOfBits_beq_one ..
  case unread => exact checksumOk_sampleCounter_of_checksum hsrc x cnt

/-- Settles O18 by reading the columns of the default map. -/
theorem defaultMapToggleClasses : Obligations.DefaultMapToggleClasses := by
  have hcolumns : ∀ i < 28, coveringRows defaultCsumMap i =
      if i % 2 = 0 then 0b0001#4 else if i % 4 = 1 then 0b0011#4
        else if i = 7 ∨ i = 15 ∨ i = 23 then 0b1111#4 else 0b0111#4 := by
    decide
  intro v i hi
  rw [computedChecksum_flip, hcolumns i hi]

end Sys2Proof.Proofs
end

section
/-! SUPPORT. The family of 42_colorimetry.md, the arithmetic (R131, R132): `roundTo` gives the binary64 nearest to the exact
quotient, ties to even, so each operation on finite operands is its exact result rounded once. -/

namespace Sys2Proof.Machine

/-! ### Signed units -/

theorem getLsbD_signBit (a : F64) : a.getLsbD 63 = signField a := by
  rw [signField]

theorem withSign_zero (neg : Bool) : withSign neg 0 = if neg then 0x8000000000000000#64 else 0#64 := by
  cases neg <;> rfl

@[simp] theorem signedUnits_false (units : Nat) : signedUnits false units = units := rfl

@[simp] theorem signedUnits_true (units : Nat) : signedUnits true units = -(units : Int) := rfl

@[simp] theorem signedUnits_zero (neg : Bool) : signedUnits neg 0 = 0 := by
  cases neg <;> rfl

@[simp] theorem natAbs_signedUnits (neg : Bool) (units : Nat) : (signedUnits neg units).natAbs = units := by
  cases neg <;> simp

theorem signedUnits_xor_mul (s t : Bool) (m n : Nat) :
    signedUnits (s ^^ t) (m * n) = signedUnits s m * signedUnits t n := by
  cases s <;> cases t <;> simp

theorem signedUnits_natAbs (z : Int) : signedUnits (decide (z < 0)) z.natAbs = z := by
  by_cases h : z < 0
  · simp only [h, decide_true, signedUnits_true]; omega
  · simp only [h, decide_false, signedUnits_false]; omega

/-- A quotient that is not zero is negative exactly where its sign says so. -/
theorem decide_signedUnits_mul_neg (neg : Bool) {num den : Nat} (hnum : 0 < num) (hden : 0 < den) :
    decide (signedUnits neg num * (den : Int) < 0) = neg := by
  have hpos : (0 : Int) < num * den := by positivity
  cases neg
  · rw [signedUnits_false, decide_eq_false (by omega)]
  · rw [signedUnits_true, Int.neg_mul, decide_eq_true (by omega)]

/-! ### One, in units -/

theorem natCast_oneUnits : ((oneUnits : Nat) : Int) = 2 ^ 1074 := by
  rw [oneUnits, Nat.cast_pow, Nat.cast_ofNat]

theorem oneUnits_pos : 0 < oneUnits := by
  rw [oneUnits]
  positivity

/-! ### The shift of a rounding -/

/-- Above the subnormals the quotient has its leading bit at place 52 of the shifted unit. -/
theorem le_of_roundShift_ne_zero {num den : Nat} (h : roundShift num den ≠ 0) :
    2 ^ 52 * (den * 2 ^ roundShift num den) ≤ num := by
  have hlog : (num / den).log2 = 52 + roundShift num den := by unfold roundShift at h ⊢; omega
  have hne : num / den ≠ 0 := by intro hz; rw [hz, Nat.log2_zero] at hlog; omega
  have hle := Nat.mul_le_of_le_div _ _ _ (Nat.log2_self_le hne)
  rw [hlog, pow_add] at hle
  linarith

theorem lt_of_roundShift (num : Nat) {den : Nat} (hden : 0 < den) :
    num < 2 ^ 53 * (den * 2 ^ roundShift num den) := by
  have hlog : (num / den).log2 + 1 ≤ 53 + roundShift num den := by unfold roundShift; omega
  have hlt : num / den < 2 ^ (53 + roundShift num den) :=
    Nat.lt_of_lt_of_le Nat.lt_log2_self (Nat.pow_le_pow_right (by decide) hlog)
  rw [Nat.div_lt_iff_lt_mul hden, pow_add] at hlt
  linarith

/-! ### Nearest among the numbers of 53 bits -/

/-- A finite number is a whole number of at most 53 bits times a power of two. -/
theorem exists_fpUnits_eq (a : F64) : ∃ (j : Int) (k : Nat), j.natAbs < 2 ^ 53 ∧ fpUnits a = j * 2 ^ k := by
  have hfrac := fracField_lt a
  by_cases he : expField a = 0
  · refine ⟨signedUnits (signField a) (fracField a), 0, ?_, ?_⟩
    · rw [natAbs_signedUnits]; omega
    · rw [fpUnits, unitsOf, if_pos he, pow_zero, mul_one]
  · refine ⟨signedUnits (signField a) (2 ^ 52 + fracField a), expField a - 1, ?_, ?_⟩
    · rw [natAbs_signedUnits]; omega
    · rw [fpUnits, unitsOf, if_neg he]
      cases signField a
      · simp
      · simp only [signedUnits_true]; push_cast; ring

/-- A multiple of `d` within half of `d` is the nearest one; another is equally near only at a tie. -/
theorem multiple_nearest {x d m : Int} (hnear : 2 * (x - m * d).natAbs ≤ d.natAbs) (j : Int) (hd : 0 < d) :
    (x - m * d).natAbs ≤ (x - j * d).natAbs ∧
    ((x - j * d).natAbs = (x - m * d).natAbs → j = m ∨ 2 * (x - m * d).natAbs = d.natAbs) := by
  rcases lt_trichotomy j m with hlt | rfl | hgt
  · have hstep : (j + 1) * d ≤ m * d := Int.mul_le_mul_of_nonneg_right hlt hd.le
    rw [add_mul, one_mul] at hstep
    omega
  · simp
  · have hstep : (m + 1) * d ≤ j * d := Int.mul_le_mul_of_nonneg_right hgt hd.le
    rw [add_mul, one_mul] at hstep
    omega

/-- The significand is within half of the exact quotient in shifted units, and even at a tie. -/
theorem roundSignificand_near (num : Nat) {den : Nat} (hden : 0 < den) :
    2 * ((num : Int) - roundSignificand num den * (den * 2 ^ roundShift num den : Nat)).natAbs ≤
        den * 2 ^ roundShift num den ∧
    (2 * ((num : Int) - roundSignificand num den * (den * 2 ^ roundShift num den : Nat)).natAbs =
        den * 2 ^ roundShift num den → roundSignificand num den % 2 = 0) :=
  roundHalfEven_near num (Nat.mul_pos hden (Nat.two_pow_pos _))

/-- R131: no number of 53 bits is nearer than the rounded one, and one is equally near only at a tie that went to even. A number
below the shifted unit's grid lies below the leading bit's place, which is on the grid. -/
theorem roundSignificand_nearest (num : Nat) {den : Nat} (hden : 0 < den) {j : Int} (hj : j.natAbs < 2 ^ 53) (k : Nat) :
    ((num : Int) - (roundSignificand num den * 2 ^ roundShift num den : Nat) * den).natAbs ≤ (num - j * 2 ^ k * den).natAbs ∧
    ((num - j * 2 ^ k * den).natAbs = ((num : Int) - (roundSignificand num den * 2 ^ roundShift num den : Nat) * den).natAbs →
      j * 2 ^ k = (roundSignificand num den * 2 ^ roundShift num den : Nat) ∨ roundSignificand num den % 2 = 0) := by
  obtain ⟨hnear, htie⟩ := roundSignificand_near num hden
  have hassoc : ((roundSignificand num den * 2 ^ roundShift num den : Nat) : Int) * den =
      roundSignificand num den * (den * 2 ^ roundShift num den : Nat) := by push_cast; ring
  have hnearest := fun i : Int => multiple_nearest (d := (den * 2 ^ roundShift num den : Nat)) hnear i (by positivity)
  rw [hassoc]
  rcases Nat.lt_or_ge k (roundShift num den) with hk | hk
  · have hbelow : j * 2 ^ k * den < 2 ^ 52 * (den * 2 ^ roundShift num den : Nat) := by
      have hpow : 2 ^ (k + 1) ≤ 2 ^ roundShift num den := Nat.pow_le_pow_right (by decide) hk
      calc j * 2 ^ k * den < 2 ^ 53 * 2 ^ k * den := by gcongr; omega
        _ = 2 ^ 52 * (den * (2 ^ (k + 1) : Nat)) := by push_cast; ring
        _ ≤ 2 ^ 52 * (den * 2 ^ roundShift num den : Nat) := by
          exact_mod_cast Nat.mul_le_mul_left (2 ^ 52) (Nat.mul_le_mul_left den hpow)
    have habove := le_of_roundShift_ne_zero (num := num) (den := den) (by omega)
    have hlead := (hnearest (2 ^ 52)).1
    omega
  · obtain ⟨i, rfl⟩ := Nat.exists_eq_add_of_le hk
    have hmultiple : j * 2 ^ (roundShift num den + i) * den =
        j * 2 ^ i * (den * 2 ^ roundShift num den : Nat) := by push_cast; ring
    obtain ⟨hle, heq⟩ := hnearest (j * 2 ^ i)
    rw [hmultiple]
    refine ⟨hle, fun h => ?_⟩
    rcases heq h with hsame | hhalf
    · left; push_cast; rw [← hsame]; ring
    · exact .inr (htie hhalf)

/-! ### The rounded encoding -/

theorem roundMag_of_lt {num den : Nat} (h : roundMag num den < infBits) :
    roundMag num den = 2 ^ 52 * roundShift num den + roundSignificand num den := by
  rw [roundMag_eq] at h ⊢
  omega

theorem fpUnits_of_fpValue {a : F64} {neg : Bool} {units : Nat} (h : fpValue a = .finite neg units) :
    fpUnits a = signedUnits neg units := by
  unfold fpValue at h
  split at h
  · split at h <;> cases h
  · cases h; rfl

theorem fpUnits_roundTo (neg : Bool) {num den : Nat} (h : roundMag num den < infBits) :
    fpUnits (roundTo neg num den) = signedUnits neg (roundSignificand num den * 2 ^ roundShift num den) :=
  fpUnits_of_fpValue (fpValue_roundTo neg h)

theorem getLsbD_zero_roundTo (neg : Bool) {num den : Nat} (h : roundMag num den < infBits) :
    (roundTo neg num den).getLsbD 0 = decide (roundSignificand num den % 2 = 1) := by
  have hmag := roundMag_of_lt h
  rw [BitVec.getLsbD, roundTo, withSign_toNat neg (by unfold infBits at h; omega), Nat.testBit_zero, decide_eq_decide]
  cases neg
  · simp only [Bool.false_eq_true, if_false]; omega
  · simp only [if_true]; omega

@[simp] theorem roundMag_zero (den : Nat) : roundMag 0 den = 0 := by
  simp [roundMag, roundHalfEven]

/-- R131: a rounding that does not overflow gives the nearest finite number, ties to even. -/
theorem nearestEven_roundTo (neg : Bool) {num den : Nat} (hden : 0 < den) (h : roundMag num den < infBits) :
    NearestEven (roundTo neg num den) (signedUnits neg num) den := by
  intro c _
  obtain ⟨j, k, hj, hc⟩ := exists_fpUnits_eq c
  rw [fpUnits_roundTo neg h, getLsbD_zero_roundTo neg h, hc]
  cases neg
  · obtain ⟨hle, heq⟩ := roundSignificand_nearest num hden hj k
    exact ⟨hle, fun e => (heq e).imp_right fun heven => decide_eq_false (by omega)⟩
  · obtain ⟨hle, heq⟩ := roundSignificand_nearest num hden (j := -j) (by rwa [Int.natAbs_neg]) k
    have hmirror : ∀ u v : Int, (-u - v).natAbs = (u - -v).natAbs := fun u v => by omega
    simp only [signedUnits_true, hmirror, neg_neg, Int.neg_mul] at hle heq ⊢
    exact ⟨hle, fun e => (heq e).imp (fun hs => by rw [← hs, neg_neg]) fun heven => decide_eq_false (by omega)⟩

/-- R140: a literal that is the rounding of a decimal is the binary64 nearest to it. -/
theorem nearestEven_of_roundTo {a : F64} {num den : Nat} (h : a = roundTo false (num * oneUnits) den) (hden : 0 < den)
    (hfin : isFinite a = true) : NearestEven a (num * 2 ^ 1074) den := by
  have hmag := (isFinite_roundTo_iff false (num * oneUnits) den).1 (h ▸ hfin)
  have hnearest := nearestEven_roundTo false hden hmag
  rwa [← h, signedUnits_false, Nat.cast_mul, natCast_oneUnits] at hnearest

/-! ### Overflow -/

/-- A significand reaches 2^53 from the midpoint below it on: the significand below that midpoint is odd, so a tie goes up. -/
theorem lt_iff_lt_midpoint {num m q : Nat} (hm : m ≤ 2 ^ 53) (hq : 0 < q)
    (hnear : 2 * ((num : Int) - m * (2 * q : Nat)).natAbs ≤ 2 * q)
    (htie : 2 * ((num : Int) - m * (2 * q : Nat)).natAbs = 2 * q → m % 2 = 0) :
    m < 2 ^ 53 ↔ num < (2 ^ 54 - 1) * q := by
  rcases Nat.lt_or_ge m (2 ^ 53 - 1) with hlt | hge
  · have hle : (m + 1) * (2 * q) ≤ (2 ^ 53 - 1) * (2 * q) := Nat.mul_le_mul_right _ hlt
    rw [add_mul] at hle
    push_cast at hnear
    zify at hle
    omega
  · obtain rfl | rfl : m = 2 ^ 53 - 1 ∨ m = 2 ^ 53 := by omega
    all_goals omega

/-- R131: a rounding overflows from the midpoint between the largest finite number and 2^1024 on. The cases are a last place
below that of the largest finite numbers, theirs, and one above it. -/
theorem roundMag_lt_infBits_iff (num : Nat) {den : Nat} (hden : 0 < den) :
    roundMag num den < infBits ↔ num < (2 ^ 54 - 1) * 2 ^ 2044 * den := by
  have hmag : roundMag num den < infBits ↔ 2 ^ 52 * roundShift num den + roundSignificand num den < infBits := by
    rw [roundMag_eq]; omega
  have hupper := lt_of_roundShift num hden
  have hlower := le_of_roundShift_ne_zero (num := num) (den := den)
  obtain ⟨hnear, htie⟩ := roundSignificand_near num hden
  have hrange := roundSignificand_range num den
  rw [hmag]
  clear hmag
  unfold infBits
  generalize roundSignificand num den = m at *
  generalize roundShift num den = k at *
  generalize he : 2044 = e
  have hpos : 0 < 2 ^ e * den := Nat.mul_pos (Nat.two_pow_pos e) hden
  rw [mul_assoc]
  rcases lt_trichotomy k (e + 1) with hk | rfl | hk
  · have hle : den * 2 ^ k ≤ 2 ^ e * den := by rw [mul_comm]; gcongr <;> omega
    omega
  · have hunit : den * 2 ^ (e + 1) = 2 * (2 ^ e * den) := by ring
    rw [hunit] at hnear htie
    rw [← lt_iff_lt_midpoint (by omega) hpos hnear htie]
    omega
  · have hle : 2 ^ 2 * (2 ^ e * den) ≤ den * 2 ^ k := by rw [← mul_assoc, ← pow_add, mul_comm]; gcongr <;> omega
    have hbeyond := hlower (by omega)
    omega

/-- R131: what `RoundedOnce` asks, its two cases side by side. The lemmas below speak of this one: where a proof's own term is a
`RoundedOnce`, Lean evaluates the conditional's test, a number of two thousand binary places. -/
structure CorrectlyRounded (r : F64) (num den : Int) : Prop where
  overflow : (2 ^ 54 - 1) * 2 ^ 2044 * den.natAbs ≤ num.natAbs → r = withSign (decide (num * den < 0)) infBits
  nearest : num.natAbs < (2 ^ 54 - 1) * 2 ^ 2044 * den.natAbs → isFinite r = true ∧ NearestEven r num den

theorem roundedOnce_iff (r : F64) (num den : Int) : RoundedOnce r num den ↔ CorrectlyRounded r num den := by
  rw [RoundedOnce, ite_prop_iff_and, Nat.not_le]
  exact ⟨fun ⟨hover, hnear⟩ => ⟨hover, hnear⟩, fun ⟨hover, hnear⟩ => ⟨hover, hnear⟩⟩

/-- R131: `roundTo` is the one rounding of a signed quotient. -/
theorem correctlyRounded_roundTo (neg : Bool) (num : Nat) {den : Nat} (hden : 0 < den) :
    CorrectlyRounded (roundTo neg num den) (signedUnits neg num) den where
  nearest hsize := by
    rw [natAbs_signedUnits, Int.natAbs_natCast, ← roundMag_lt_infBits_iff num hden] at hsize
    exact ⟨isFinite_withSign neg hsize, nearestEven_roundTo neg hden hsize⟩
  overflow hsize := by
    rw [natAbs_signedUnits, Int.natAbs_natCast, ← Nat.not_lt, ← roundMag_lt_infBits_iff num hden, Nat.not_lt] at hsize
    have hnum : num ≠ 0 := by
      rintro rfl
      rw [roundMag_zero] at hsize
      exact absurd hsize (by decide)
    rw [roundTo, le_antisymm (roundMag_le_infBits num den) hsize, decide_signedUnits_mul_neg neg (Nat.pos_of_ne_zero hnum) hden]

theorem nearestEven_neg_neg (r : F64) (num den : Int) : NearestEven r (-num) (-den) ↔ NearestEven r num den := by
  have hmirror : ∀ u : Int, (-num - u * -den).natAbs = (num - u * den).natAbs := fun u => by
    rw [Int.mul_neg]; omega
  simp only [NearestEven, hmirror]

theorem CorrectlyRounded.of_neg_neg {r : F64} {num den : Int} (h : CorrectlyRounded r (-num) (-den)) :
    CorrectlyRounded r num den := by
  obtain ⟨hover, hnear⟩ := h
  rw [Int.natAbs_neg, Int.natAbs_neg] at hover hnear
  rw [neg_mul_neg] at hover
  rw [nearestEven_neg_neg] at hnear
  exact ⟨hover, hnear⟩

/-- The same where the sign of the quotient is made of two. -/
theorem correctlyRounded_roundTo_xor (s t : Bool) (num : Nat) {den : Nat} (hden : 0 < den) :
    CorrectlyRounded (roundTo (s ^^ t) num den) (signedUnits s num) (signedUnits t den) := by
  cases t
  · rw [Bool.xor_false]
    exact correctlyRounded_roundTo s num hden
  · have hflip : signedUnits (!s) num = -signedUnits s num := by cases s <;> simp
    rw [Bool.xor_true]
    apply CorrectlyRounded.of_neg_neg
    rw [← hflip, signedUnits_true, neg_neg]
    exact correctlyRounded_roundTo (!s) num hden

/-! ### The four operations on finite operands -/

theorem fpUnits_eq_signedUnits (a : F64) : fpUnits a = signedUnits (signField a) (fpUnits a).natAbs := by
  rw [fpUnits, natAbs_signedUnits]

theorem fpValue_of_isFinite_eq_natAbs {a : F64} (ha : isFinite a = true) :
    fpValue a = .finite (signField a) (fpUnits a).natAbs := by
  rw [fpValue_of_isFinite ha, fpUnits, natAbs_signedUnits]

/-- An exact sum that is zero is rounded too, to a zero. -/
theorem fadd_eq_roundTo {a b : F64} (ha : isFinite a = true) (hb : isFinite b = true) :
    ∃ neg num, fadd a b = roundTo neg num 1 ∧ fpUnits a + fpUnits b = signedUnits neg num := by
  rw [fadd_of_isFinite ha hb]
  split
  case isTrue hzero => exact ⟨_, 0, by rw [roundTo, roundMag_zero], by rw [hzero, signedUnits_zero]⟩
  case isFalse => exact ⟨_, _, rfl, (signedUnits_natAbs _).symm⟩

theorem fmul_of_isFinite {a b : F64} (ha : isFinite a = true) (hb : isFinite b = true) :
    fmul a b = roundTo (signField a ^^ signField b) ((fpUnits a).natAbs * (fpUnits b).natAbs) oneUnits := by
  rw [fmul, fpValue_of_isFinite_eq_natAbs ha, fpValue_of_isFinite_eq_natAbs hb]

theorem fdiv_of_isFinite {a b : F64} (ha : isFinite a = true) (hb : isFinite b = true) (hne : fpUnits b ≠ 0) :
    fdiv a b = roundTo (signField a ^^ signField b) (oneUnits * (fpUnits a).natAbs) (fpUnits b).natAbs := by
  simp only [fdiv, fpValue_of_isFinite_eq_natAbs ha, fpValue_of_isFinite_eq_natAbs hb, if_neg (Int.natAbs_ne_zero.2 hne)]

theorem correctlyRounded_fadd {a b : F64} (ha : isFinite a = true) (hb : isFinite b = true) :
    CorrectlyRounded (fadd a b) (fpUnits a + fpUnits b) 1 := by
  obtain ⟨neg, num, hsum, hunits⟩ := fadd_eq_roundTo ha hb
  rw [hsum, hunits, ← Nat.cast_one (R := Int)]
  exact correctlyRounded_roundTo neg num Nat.one_pos

theorem correctlyRounded_fsub {a b : F64} (ha : isFinite a = true) (hb : isFinite b = true) :
    CorrectlyRounded (fsub a b) (fpUnits a - fpUnits b) 1 := by
  rw [fsub, sub_eq_add_neg, ← fpUnits_fneg]
  exact correctlyRounded_fadd ha ((isFinite_fneg b).trans hb)

theorem correctlyRounded_fmul {a b : F64} (ha : isFinite a = true) (hb : isFinite b = true) :
    CorrectlyRounded (fmul a b) (fpUnits a * fpUnits b) (2 ^ 1074) := by
  have hunits : fpUnits a * fpUnits b =
      signedUnits (signField a ^^ signField b) ((fpUnits a).natAbs * (fpUnits b).natAbs) := by
    rw [signedUnits_xor_mul, ← fpUnits_eq_signedUnits, ← fpUnits_eq_signedUnits]
  rw [fmul_of_isFinite ha hb, hunits, ← natCast_oneUnits]
  exact correctlyRounded_roundTo _ _ oneUnits_pos

theorem correctlyRounded_fdiv {a b : F64} (ha : isFinite a = true) (hb : isFinite b = true) (hne : fpUnits b ≠ 0) :
    CorrectlyRounded (fdiv a b) (fpUnits a * 2 ^ 1074) (fpUnits b) := by
  have hnum : fpUnits a * 2 ^ 1074 = signedUnits (signField a) (oneUnits * (fpUnits a).natAbs) := by
    have hsplit := signedUnits_xor_mul false (signField a) oneUnits (fpUnits a).natAbs
    rw [Bool.false_xor, ← fpUnits_eq_signedUnits, signedUnits_false, natCast_oneUnits] at hsplit
    rw [hsplit, mul_comm]
  rw [fdiv_of_isFinite ha hb hne, hnum]
  conv => arg 3; rw [fpUnits_eq_signedUnits b]
  exact correctlyRounded_roundTo_xor _ _ _ (Int.natAbs_pos.2 hne)

/-! ### Exact conversions (R132) -/

theorem roundHalfEven_mul_of_dvd {a b : Nat} (hb : 0 < b) (h : b ∣ a) : roundHalfEven a b * b = a := by
  have hexact : ¬ (b < 2 * (a % b) ∨ 2 * (a % b) = b ∧ a / b % 2 = 1) := by
    rw [Nat.mod_eq_zero_of_dvd h]; omega
  rw [roundHalfEven, if_neg hexact, Nat.div_mul_cancel h]

theorem roundShift_le_of_lt {num den e : Nat} (h : num < 2 ^ 53 * (den * 2 ^ e)) : roundShift num den ≤ e := by
  by_contra hgt
  have hlower := le_of_roundShift_ne_zero (num := num) (den := den) (by omega)
  have hpow : den * 2 ^ (e + 1) ≤ den * 2 ^ roundShift num den := by gcongr <;> omega
  rw [pow_succ, ← mul_assoc] at hpow
  omega

/-- A magnitude of at most 2^1022, that is 2^2096 units, does not overflow. -/
theorem roundMag_lt_infBits_of_le {num den c : Nat} (hden : 0 < den) (hc : c ≤ 2096) (h : num ≤ 2 ^ c * den) :
    roundMag num den < infBits := by
  rw [roundMag_lt_infBits_iff num hden]
  generalize he : 2044 = e
  have hpow : 2 ^ c * den ≤ 2 ^ (52 + e) * den := by gcongr <;> omega
  have hpos : 0 < 2 ^ e * den := by positivity
  rw [pow_add, mul_assoc] at hpow
  rw [mul_assoc]
  omega

@[simp] theorem u2f_zero : u2f 0 = 0#64 := by
  rw [u2f, Nat.mul_zero, roundTo, roundMag_zero]
  rfl

/-- R132: a number below 2^53 fills at most the 53 bits of a significand, so none is lost. -/
theorem u2f_exact {n : Nat} (h : n < 2 ^ 53) : isFinite (u2f n) = true ∧ fpUnits (u2f n) = (n : Int) * 2 ^ 1074 := by
  have hlt : oneUnits * n < 2 ^ 53 * oneUnits := by
    rw [mul_comm]
    exact Nat.mul_lt_mul_of_pos_right h oneUnits_pos
  have hmag : roundMag (oneUnits * n) 1 < infBits := by
    refine roundMag_lt_infBits_of_le (c := 53 + 1074) Nat.one_pos (by decide) ?_
    rw [pow_add, mul_one, ← oneUnits]
    exact hlt.le
  have hshift : roundShift (oneUnits * n) 1 ≤ 1074 := by
    refine roundShift_le_of_lt ?_
    rw [one_mul, ← oneUnits]
    exact hlt
  have hdvd : 1 * 2 ^ roundShift (oneUnits * n) 1 ∣ oneUnits * n := by
    rw [one_mul, oneUnits]
    exact Dvd.dvd.mul_right (pow_dvd_pow 2 hshift) n
  have hexact := roundHalfEven_mul_of_dvd (by positivity) hdvd
  rw [← roundSignificand, one_mul] at hexact
  exact ⟨isFinite_withSign false hmag, by
    rw [u2f, fpUnits_roundTo false hmag, hexact, signedUnits_false, Nat.cast_mul, natCast_oneUnits, mul_comm]⟩

end Sys2Proof.Machine

namespace Sys2Proof.Proofs

open Sys2Proof.Machine

/-- Settles O29: the exact sum is a whole number of units, rounded once; a difference is the sum with the sign changed. -/
theorem additionAndSubtractionRoundOnce : Obligations.AdditionAndSubtractionRoundOnce := by
  intro a b ha hb
  rw [roundedOnce_iff, roundedOnce_iff]
  exact ⟨correctlyRounded_fadd ha hb, correctlyRounded_fsub ha hb⟩

/-- Settles O30: the exact product and quotient as fractions of units, rounded once. -/
theorem multiplicationAndDivisionRoundOnce : Obligations.MultiplicationAndDivisionRoundOnce := by
  intro a b ha hb
  rw [roundedOnce_iff, roundedOnce_iff]
  exact ⟨correctlyRounded_fmul ha hb, correctlyRounded_fdiv ha hb⟩

/-- Settles O28: the significand has room for all 53 bits, and a code has 35. -/
theorem codeConversionIsExact : Obligations.CodeConversionIsExact := by
  have hsign : ∀ n, (u2f n).getLsbD 63 = false := fun n => signField_roundTo false (oneUnits * n) 1
  have hexact : ∀ n < 2 ^ 53, isFinite (u2f n) = true ∧ (u2f n).getLsbD 63 = false ∧
      fpUnits (u2f n) = (n : Int) * 2 ^ 1074 :=
    fun n hn => ⟨(u2f_exact hn).1, hsign n, (u2f_exact hn).2⟩
  exact ⟨hexact, fun code => hexact _ (Nat.lt_trans code.isLt (by decide)), u2f_zero⟩

/-- Settles O33: each literal is the rounding of its decimal, taken as a fraction. -/
theorem mcCamyConstantsAreTheNearest : Obligations.McCamyConstantsAreTheNearest :=
  ⟨⟨rfl, nearestEven_of_roundTo (num := 3320) (den := 10000) (by decide +kernel) (by decide) (by decide)⟩,
    ⟨rfl, nearestEven_of_roundTo (num := 1858) (den := 10000) (by decide +kernel) (by decide) (by decide)⟩,
    ⟨rfl, nearestEven_of_roundTo (num := 437) (den := 1) (by decide +kernel) (by decide) (by decide)⟩,
    ⟨rfl, nearestEven_of_roundTo (num := 3601) (den := 1) (by decide +kernel) (by decide) (by decide)⟩,
    ⟨rfl, nearestEven_of_roundTo (num := 6861) (den := 1) (by decide +kernel) (by decide) (by decide)⟩,
    ⟨rfl, nearestEven_of_roundTo (num := 5517) (den := 1) (by decide +kernel) (by decide) (by decide)⟩⟩

/-- Settles O34 by running the polynomial on the one point the rule names. -/
theorem daylightPointIsNear6500 : Obligations.DaylightPointIsNear6500 := by
  unfold Obligations.DaylightPointIsNear6500
  decide +kernel

/-- Settles O31: rounding keeps the sign it is given, at underflow too. -/
theorem signsOfFiniteResults : Obligations.SignsOfFiniteResults := by
  intro a b ha hb
  simp only [getLsbD_signBit]
  refine ⟨?_, fun hne => ?_, fun hzero => ?_, fun hne => ?_⟩
  · rw [fmul_of_isFinite ha hb, signField_roundTo]
  · rw [fdiv_of_isFinite ha hb hne, signField_roundTo]
  · rw [fadd_of_isFinite ha hb, if_pos hzero, withSign_zero]
  · rw [fadd_of_isFinite ha hb, if_neg hne, signField_roundTo]

end Sys2Proof.Proofs
end

section
/-! SUPPORT. The family of 42_colorimetry.md, infinities and NaNs: the four operations by the kinds of their operands, as IEEE 754
has them (R131). -/

namespace Sys2Proof.Machine

theorem isNaN_quietNaN : isNaN quietNaN = true := by decide

/-! ### A NaN operand -/

theorem fadd_of_isNaN {a b : F64} (h : isNaN a = true ∨ isNaN b = true) : fadd a b = quietNaN := by
  rcases h with ha | hb
  · simp only [fadd, fpValue_of_isNaN ha]
  · cases ha : fpValue a <;> simp only [fadd, fpValue_of_isNaN hb, ha]

theorem fmul_of_isNaN {a b : F64} (h : isNaN a = true ∨ isNaN b = true) : fmul a b = quietNaN := by
  rcases h with ha | hb
  · simp only [fmul, fpValue_of_isNaN ha]
  · cases ha : fpValue a <;> simp only [fmul, fpValue_of_isNaN hb, ha]

theorem fdiv_of_isNaN {a b : F64} (h : isNaN a = true ∨ isNaN b = true) : fdiv a b = quietNaN := by
  rcases h with ha | hb
  · simp only [fdiv, fpValue_of_isNaN ha]
  · cases ha : fpValue a <;> simp only [fdiv, fpValue_of_isNaN hb, ha]

/-! ### Two infinities -/

theorem fadd_of_isInfinite {a b : F64} (ha : isInfinite a = true) (hb : isInfinite b = true) :
    fadd a b = if signField a = signField b then a else quietNaN := by
  simp only [fadd, fpValue_of_isInfinite ha, fpValue_of_isInfinite hb, ← eq_withSign_of_isInfinite ha]

theorem fmul_of_isInfinite {a b : F64} (ha : isInfinite a = true) (hb : isInfinite b = true) :
    fmul a b = withSign (signField a ^^ signField b) infBits := by
  simp only [fmul, fpValue_of_isInfinite ha, fpValue_of_isInfinite hb]

theorem fdiv_of_isInfinite {a b : F64} (ha : isInfinite a = true) (hb : isInfinite b = true) : fdiv a b = quietNaN := by
  simp only [fdiv, fpValue_of_isInfinite ha, fpValue_of_isInfinite hb]

/-! ### An infinity and a finite number -/

section
variable {a b : F64} (ha : isInfinite a = true) (hb : isFinite b = true)
include ha hb

theorem fadd_infinite_finite : fadd a b = a := by
  simp only [fadd, fpValue_of_isInfinite ha, fpValue_of_isFinite hb, ← eq_withSign_of_isInfinite ha]

theorem fadd_finite_infinite : fadd b a = a := by
  simp only [fadd, fpValue_of_isInfinite ha, fpValue_of_isFinite hb, ← eq_withSign_of_isInfinite ha]

theorem fmul_infinite_finite :
    fmul a b = if fpUnits b = 0 then quietNaN else withSign (signField a ^^ signField b) infBits := by
  simp only [fmul, fpValue_of_isInfinite ha, fpValue_of_isFinite_eq_natAbs hb, Int.natAbs_eq_zero]

theorem fmul_finite_infinite :
    fmul b a = if fpUnits b = 0 then quietNaN else withSign (signField a ^^ signField b) infBits := by
  simp only [fmul, fpValue_of_isInfinite ha, fpValue_of_isFinite_eq_natAbs hb, Int.natAbs_eq_zero, Bool.xor_comm]

theorem fdiv_infinite_finite : fdiv a b = withSign (signField a ^^ signField b) infBits := by
  simp only [fdiv, fpValue_of_isInfinite ha, fpValue_of_isFinite hb]

theorem fdiv_finite_infinite : fdiv b a = withSign (signField a ^^ signField b) 0 := by
  simp only [fdiv, fpValue_of_isInfinite ha, fpValue_of_isFinite hb, Bool.xor_comm]

end

theorem fdiv_by_zero {a b : F64} (ha : isFinite a = true) (hb : isFinite b = true) (hzero : fpUnits b = 0) :
    fdiv a b = if fpUnits a = 0 then quietNaN else withSign (signField a ^^ signField b) infBits := by
  simp only [fdiv, fpValue_of_isFinite_eq_natAbs ha, fpValue_of_isFinite_eq_natAbs hb, hzero, Int.natAbs_zero,
    Int.natAbs_eq_zero, if_true]

end Sys2Proof.Machine

namespace Sys2Proof.Proofs

open Sys2Proof.Machine

/-- Settles O58, one case per clause: a difference is the sum with the second sign changed. -/
theorem specialOperandsFollowIeee : Obligations.SpecialOperandsFollowIeee := by
  intro a b
  simp only [getLsbD_signBit]
  refine ⟨fun h => ?nan, fun ha hb => ?twoInfinite, fun ha hb => ?oneInfinite, fun ha hb hzero => ?zeroDivisor⟩
  case nan =>
    have h' : isNaN a = true ∨ isNaN (fneg b) = true := by rwa [isNaN_fneg]
    simp only [fsub, fadd_of_isNaN h, fadd_of_isNaN h', fmul_of_isNaN h, fdiv_of_isNaN h, isNaN_quietNaN, and_self]
  case twoInfinite =>
    have hb' : isInfinite (fneg b) = true := by rwa [isInfinite_fneg]
    rw [fsub, fadd_of_isInfinite ha hb, fadd_of_isInfinite ha hb', fmul_of_isInfinite ha hb, fdiv_of_isInfinite ha hb,
      signField_fneg]
    refine ⟨?_, rfl, isNaN_quietNaN⟩
    cases signField a <;> cases signField b <;> simp [isNaN_quietNaN]
  case oneInfinite =>
    have ha' : isInfinite (fneg a) = true := by rwa [isInfinite_fneg]
    have hb' : isFinite (fneg b) = true := by rwa [isFinite_fneg]
    rw [fsub, fsub, fadd_infinite_finite ha hb, fadd_finite_infinite ha hb, fadd_infinite_finite ha hb',
      fadd_finite_infinite ha' hb, fmul_infinite_finite ha hb, fmul_finite_infinite ha hb, fdiv_infinite_finite ha hb,
      fdiv_finite_infinite ha hb]
    refine ⟨rfl, rfl, rfl, rfl, ?_, rfl, rfl⟩
    by_cases hzero : fpUnits b = 0 <;> simp [hzero, isNaN_quietNaN]
  case zeroDivisor =>
    rw [fdiv_by_zero ha hb hzero]
    by_cases hzero : fpUnits a = 0 <;> simp [hzero, isNaN_quietNaN]

end Sys2Proof.Proofs
end

section
/-! SUPPORT. The family of 42_colorimetry.md, the engine: how large its numbers can be under R9 (R136, R137, R145), what a dark
frame gives (R139, R142), and what each operation answers. -/

namespace Sys2Proof.Machine

/-! ### Magnitudes under R9 -/

/-- A finite number of at most `2^e` units. -/
def AtMost (e : Nat) (a : F64) : Prop := isFinite a = true ∧ (fpUnits a).natAbs ≤ 2 ^ e

theorem AtMost.mono {d e : Nat} {a : F64} (h : AtMost d a) (hle : d ≤ e) : AtMost e a :=
  ⟨h.1, h.2.trans (Nat.pow_le_pow_right (by decide) hle)⟩

/-- Rounding at most doubles a magnitude: zero is no nearer to it than the rounded number. -/
theorem atMost_roundTo (neg : Bool) {num den c : Nat} (hden : 0 < den) (hc : c ≤ 2096) (h : num ≤ 2 ^ c * den) :
    AtMost (c + 1) (roundTo neg num den) := by
  have hmag := roundMag_lt_infBits_of_le hden hc h
  refine ⟨isFinite_withSign neg hmag, ?_⟩
  rw [fpUnits_roundTo neg hmag, natAbs_signedUnits]
  have hnearest := (roundSignificand_nearest num hden (j := 0) (by decide) 0).1
  generalize roundSignificand num den * 2 ^ roundShift num den = r at *
  have hdouble : r * den ≤ 2 * num := by push_cast at hnearest; zify; omega
  refine Nat.le_of_mul_le_mul_right (c := den) ?_ hden
  rw [pow_succ]
  linarith

theorem AtMost.fadd {e : Nat} {a b : F64} (ha : AtMost e a) (hb : AtMost e b) (he : e ≤ 2095) :
    AtMost (e + 2) (fadd a b) := by
  obtain ⟨hfa, hua⟩ := ha
  obtain ⟨hfb, hub⟩ := hb
  obtain ⟨neg, num, hsum, hunits⟩ := fadd_eq_roundTo hfa hfb
  have hnum : num ≤ 2 ^ (e + 1) * 1 := by
    have habs := natAbs_signedUnits neg num
    rw [← hunits] at habs
    rw [pow_succ]
    omega
  rw [hsum]
  exact atMost_roundTo neg Nat.one_pos (by omega) hnum

theorem AtMost.fmul {d e c : Nat} {a b : F64} (ha : AtMost d a) (hb : AtMost e b) (hde : d + e ≤ c + 1074) (hc : c ≤ 2096) :
    AtMost (c + 1) (fmul a b) := by
  rw [fmul_of_isFinite ha.1 hb.1]
  refine atMost_roundTo _ oneUnits_pos hc ?_
  calc (fpUnits a).natAbs * (fpUnits b).natAbs ≤ 2 ^ d * 2 ^ e := Nat.mul_le_mul ha.2 hb.2
    _ = 2 ^ (d + e) := (pow_add ..).symm
    _ ≤ 2 ^ (c + 1074) := Nat.pow_le_pow_right (by decide) hde
    _ = 2 ^ c * oneUnits := by rw [pow_add, oneUnits]

/-- R9: a coefficient lies below 2^900. -/
theorem atMost_of_calEntryBounded {a : F64} (h : calEntryBounded a = true) : AtMost 1974 a := by
  have hexp : expField a < 1923 := of_decide_eq_true h
  have hfrac := fracField_lt a
  refine ⟨(isFinite_iff a).2 (by omega), ?_⟩
  rw [fpUnits, natAbs_signedUnits, unitsOf]
  split
  · calc fracField a ≤ 2 ^ 52 := hfrac.le
      _ ≤ 2 ^ 1974 := by gcongr <;> decide
  · calc (2 ^ 52 + fracField a) * 2 ^ (expField a - 1) ≤ 2 ^ 53 * 2 ^ 1921 := by gcongr <;> omega
      _ = 2 ^ 1974 := (pow_add ..).symm

/-- R92: a code has 35 bits. -/
theorem atMost_u2f_code (code : Code) : AtMost 1109 (u2f code.toNat) := by
  have hcode := code.isLt
  obtain ⟨hfin, hunits⟩ := u2f_exact (n := code.toNat) (by omega)
  refine ⟨hfin, ?_⟩
  rw [hunits, ← natCast_oneUnits, Int.natAbs_mul, Int.natAbs_natCast, Int.natAbs_natCast]
  calc code.toNat * oneUnits ≤ 2 ^ 35 * oneUnits := Nat.mul_le_mul_right _ hcode.le
    _ = 2 ^ 1109 := by rw [oneUnits, ← pow_add]

/-! ### Coefficients (R9, R133) -/

theorem calEntryBounded_calColumn {row : CalRow} (h : row.bounded = true) (k : BitVec 2) :
    calEntryBounded (calColumn row k) = true := by
  simp only [CalRow.bounded, Bool.and_eq_true] at h
  obtain ⟨⟨⟨h0, h1⟩, h2⟩, h3⟩ := h
  unfold calColumn
  split <;> assumption

theorem calEntryBounded_calEntry {m : Cal} (h : m.bounded = true) (r k : BitVec 2) : calEntryBounded (calEntry m r k) = true := by
  simp only [Cal.bounded, Bool.and_eq_true] at h
  obtain ⟨⟨⟨h0, h1⟩, h2⟩, h3⟩ := h
  unfold calEntry
  split
  · exact calEntryBounded_calColumn h0 k
  · exact calEntryBounded_calColumn h1 k
  · exact calEntryBounded_calColumn h2 k
  · exact calEntryBounded_calColumn h3 k

theorem Build.cal_bounded {b : Build} (h : b.wf = true) : b.cal.bounded = true := by
  simp only [Build.wf, Bool.and_eq_true] at h
  obtain ⟨⟨-, hcal⟩, -⟩ := h
  exact hcal

/-- R136, R137: one product of a code and a coefficient. -/
theorem atMost_fmul_code_calEntry {m : Cal} (h : m.bounded = true) (code : Code) (r k : BitVec 2) :
    AtMost 2010 (fmul (u2f code.toNat) (calEntry m r k)) :=
  (atMost_u2f_code code).fmul (atMost_of_calEntryBounded (calEntryBounded_calEntry h r k)) (by decide) (by decide)

/-- R137: three products summed. -/
theorem atMost_tristimulusColumn {m : Cal} (h : m.bounded = true) (f : QuadChannelFrame) (k : BitVec 2) :
    AtMost 2014 (tristimulusColumn m f k) := by
  have hproduct := fun (code : Code) (r : BitVec 2) => atMost_fmul_code_calEntry h code r k
  exact ((hproduct _ 0#2).fadd (hproduct _ 1#2) (by decide)).fadd ((hproduct _ 2#2).mono (by decide)) (by decide)

/-! ### A dark frame -/

/-- R145: zero times a coefficient keeps the coefficient's sign. -/
theorem fmul_zero_of_isFinite {a : F64} (ha : isFinite a = true) : fmul 0#64 a = withSign (signField a) 0 := by
  have hzero : fpUnits 0#64 = 0 := by decide
  rw [fmul_of_isFinite (by decide) ha, hzero, Int.natAbs_zero, Nat.zero_mul, roundTo, roundMag_zero,
    show signField 0#64 = false from rfl, Bool.false_xor]

theorem fadd_withSign_zero (s t : Bool) : fadd (withSign s 0) (withSign t 0) = withSign (s && t) 0 := by
  cases s <;> cases t <;> decide

/-- R139: with the three codes zero each tristimulus value is a zero. -/
theorem tristimulusColumn_dark {m : Cal} (h : m.bounded = true) {f : QuadChannelFrame} (h0 : f.ch0.code = 0#35)
    (h1 : f.ch1.code = 0#35) (h2 : f.ch2.code = 0#35) (k : BitVec 2) :
    ∃ neg, tristimulusColumn m f k = withSign neg 0 := by
  have hproduct : ∀ r, fmul (u2f (0#35).toNat) (calEntry m r k) = withSign (signField (calEntry m r k)) 0 := fun r => by
    rw [BitVec.toNat_zero, u2f_zero]
    exact fmul_zero_of_isFinite (atMost_of_calEntryBounded (calEntryBounded_calEntry h r k)).1
  exact ⟨_, by simp only [tristimulusColumn, h0, h1, h2, hproduct, fadd_withSign_zero]; rfl⟩

/-- R139: the sum of a dark frame's tristimulus values is a zero, the first test of `chroma`. -/
theorem chroma_dark {m : Cal} (h : m.bounded = true) {f : QuadChannelFrame} (h0 : f.ch0.code = 0#35)
    (h1 : f.ch1.code = 0#35) (h2 : f.ch2.code = 0#35) : chroma m f = .error .zeroSum := by
  have hcolumn := tristimulusColumn_dark h h0 h1 h2
  obtain ⟨_, hx⟩ := hcolumn 0#2
  obtain ⟨_, hy⟩ := hcolumn 1#2
  obtain ⟨_, hz⟩ := hcolumn 2#2
  rw [chroma, chromaOf, tristimulusSum, xyz, hx, hy, hz, fadd_withSign_zero, fadd_withSign_zero, feq_withSign_zero, if_pos rfl]

/-! ### What the operations answer -/

theorem exec_chroma (f : QuadChannelFrame) (s : State) :
    exec (.chroma f) s = .next (s.respond (chromaResponse (chroma s.build.cal f))) := rfl

theorem exec_cct (f : QuadChannelFrame) (s : State) :
    exec (.cct f) s = .next (s.respond (cctResponse (cctOf s.build.cal f))) := rfl

theorem exec_chroma_of_error {f : QuadChannelFrame} {s : State} {cause : DomainCause} (h : chroma s.build.cal f = .error cause) :
    exec (.chroma f) s = .next (s.respond ⟨.domainError, 0#4, 0#268⟩) := by
  rw [exec_chroma, h]
  rfl

/-- R146: CCT has no test that comes before those of CHROMA. -/
theorem exec_cct_of_chroma_error {f : QuadChannelFrame} {s : State} {cause : DomainCause}
    (h : chroma s.build.cal f = .error cause) : exec (.cct f) s = .next (s.respond ⟨.domainError, 0#4, 0#268⟩) := by
  rw [exec_cct, cctOf, h]
  rfl

/-- R138: the tests `chroma` makes are the only way it fails. -/
theorem chromaOf_error {t : Tristimulus} {cause : DomainCause} (h : chromaOf t = .error cause) :
    feq (tristimulusSum t) 0#64 = true ∨ isFinite (fdiv t.X (tristimulusSum t)) = false ∨
      isFinite (fdiv t.Y (tristimulusSum t)) = false := by
  by_contra hpass
  simp only [not_or, Bool.not_eq_true, Bool.not_eq_false] at hpass
  obtain ⟨hsum, hx, hy⟩ := hpass
  have hok := (chromaOf_ok_iff t ⟨_, _⟩).2 ⟨hsum, hx, hy, rfl⟩
  rw [h] at hok
  cases hok

/-- R142: the response of CCT, all its tests in one. -/
theorem cctResponse_cctOf (m : Cal) (f : QuadChannelFrame) {t : Tristimulus} {c : Chromaticity} (ht : t = xyz m f)
    (hc : c = ⟨fdiv t.X (tristimulusSum t), fdiv t.Y (tristimulusSum t)⟩) :
    cctResponse (cctOf m f) =
      if feq (tristimulusSum t) 0#64 = true ∨ isFinite c.x = false ∨ isFinite c.y = false ∨ feq c.y kY = true ∨
          isFinite (mccamyPolynomial (mccamyN c)) = false then ⟨.domainError, 0#4, 0#268⟩
      else ⟨.ok, 0#4, (mccamyPolynomial (mccamyN c)).setWidth 268⟩ := by
  subst ht
  rcases cctOf_cases m f with ⟨cause, hchroma, hcct⟩ | ⟨d, hchroma, hcct⟩
  · have hfail := chromaOf_error hchroma
    subst hc
    rw [hcct, if_pos (by tauto)]
    rfl
  · obtain ⟨hsum, hx, hy, hd⟩ := (chromaOf_ok_iff _ d).1 hchroma
    obtain rfl : c = d := hc.trans hd.symm
    simp only [hcct, cctResponse_mccamy, hsum, hx, hy, Bool.true_eq_false, Bool.false_eq_true, false_or]

/-- R141: what `mccamy` returns has passed its last test. -/
theorem mccamy_ok {c : Chromaticity} {cct : F64} (h : mccamy c = .ok cct) : isFinite cct = true := by
  simp only [mccamy] at h
  split at h
  · cases h
  · split at h
    · cases h; assumption
    · cases h

end Sys2Proof.Machine

namespace Sys2Proof.Proofs

open Sys2Proof.Machine

/-- Settles O25: the three products have at most 2^2010 units each, far below overflow even when each rounding doubles. -/
theorem tristimulusValuesAreFinite : Obligations.TristimulusValuesAreFinite :=
  fun _ f hcal => ⟨(atMost_tristimulusColumn hcal f 0#2).1, (atMost_tristimulusColumn hcal f 1#2).1,
    (atMost_tristimulusColumn hcal f 2#2).1⟩

/-- Settles O26: each tristimulus value is a zero, so is their sum, and that is the first test of both. -/
theorem darkFramesAreDomainErrors : Obligations.DarkFramesAreDomainErrors := by
  intro f s hwf h0 h1 h2
  have hdark := chroma_dark (Build.cal_bounded hwf) h0 h1 h2
  exact ⟨exec_chroma_of_error hdark, exec_cct_of_chroma_error hdark⟩

/-- Settles O24: LUX by the bound on its product; CHROMA and CCT test what they return. -/
theorem colorimetryNeverReturnsNonFinite : Obligations.ColorimetryNeverReturnsNonFinite := by
  intro f s hwf
  refine ⟨⟨luxOf s.build f, (atMost_fmul_code_calEntry (Build.cal_bounded hwf) _ _ _).1, exec_lux f s⟩, ?chroma, ?cct⟩
  case chroma =>
    cases hchroma : chroma s.build.cal f with
    | error cause => exact .inl (exec_chroma_of_error hchroma)
    | ok c =>
      obtain ⟨-, hx, hy, -⟩ := (chromaOf_ok_iff _ c).1 hchroma
      exact .inr ⟨c.x, c.y, hx, hy, exec_chroma_of_ok hchroma⟩
  case cct =>
    rcases cctOf_cases s.build.cal f with ⟨cause, hchroma, -⟩ | ⟨c, -, hcct⟩
    · exact .inl (exec_cct_of_chroma_error hchroma)
    · cases hmccamy : mccamy c with
      | error cause => exact .inl (by rw [exec_cct, hcct, hmccamy]; rfl)
      | ok cct => exact .inr ⟨cct, mccamy_ok hmccamy, exec_cct_of_ok (hcct.trans hmccamy)⟩

/-- Settles O19: the product is bounded, and zero times a finite coefficient is a zero of its sign. -/
theorem luxIsOneProduct : Obligations.LuxIsOneProduct := by
  refine ⟨decode_lux, fun f s => ⟨exec_lux f s, fun hwf => ?_⟩⟩
  have hcal := Build.cal_bounded hwf
  refine ⟨(atMost_fmul_code_calEntry hcal _ _ _).1, fun hdark => ?_⟩
  have hfin := (atMost_of_calEntryBounded (calEntryBounded_calEntry hcal s.build.luxRow s.build.luxCol)).1
  rw [hdark, BitVec.toNat_zero, u2f_zero, fmul_zero_of_isFinite hfin, getLsbD_signBit, withSign_zero]

/-- Settles O20: by the response to given tristimulus values. -/
theorem chromaIsTheQuotients : Obligations.ChromaIsTheQuotients := by
  refine ⟨decode_chroma, ?_⟩
  rintro f s _ _ _ _ rfl rfl rfl rfl
  rw [exec_chroma, chroma, chromaResponse_chromaOf]
  rfl

/-- Settles O21: by the response of CCT with all its tests in one. -/
theorem cctIsMcCamysPolynomial : Obligations.CctIsMcCamysPolynomial := by
  refine ⟨decode_cct, ?_⟩
  rintro f s _ _ _ _ _ _ _ _ rfl rfl rfl rfl rfl rfl rfl rfl
  rw [exec_cct, cctResponse_cctOf s.build.cal f rfl rfl]
  rfl

/-- Settles O23: a DOMAIN_ERROR comes from the chromaticity's own tests, which CCT makes first. -/
theorem cctFailsWheneverChromaFails : Obligations.CctFailsWheneverChromaFails := by
  intro f s hfail
  cases hchroma : chroma s.build.cal f with
  | error cause => exact exec_cct_of_chroma_error hchroma
  | ok c =>
    rw [exec_chroma_of_ok hchroma] at hfail
    simp [State.respond] at hfail

/-- Settles O27: no computation reads another field of the frame. -/
theorem onlyTheNamedCodesMatter : Obligations.OnlyTheNamedCodesMatter := by
  intro f g s h1
  refine ⟨by rw [exec_lux, exec_lux, luxOf, luxOf, h1], fun h0 h2 => ?_⟩
  have hchroma : chroma s.build.cal f = chroma s.build.cal g := by
    simp only [chroma, xyz, tristimulusColumn, h0, h1, h2]
  exact ⟨by rw [exec_chroma, exec_chroma, hchroma], by rw [exec_cct, exec_cct, cctOf, cctOf, hchroma]⟩

end Sys2Proof.Proofs
end

section
/-! SUPPORT. The family of 43_transport_ops.md: where a channel is read (R9, R170), what an answer of the transport makes of a
read (R40), and the response to the bytes of a channel and of a frame (R172, R175). -/

namespace Sys2Proof.Machine

/-! ### Register offsets (R9, R170) -/

/-- R9: the low register of channel 3 has an 8-bit offset. -/
theorem Build.last_offset_le {b : Build} (h : b.wf = true) : b.chBase.toNat + 3 * b.chStride + 1 ≤ 255 := by
  simp only [Build.wf, Bool.and_eq_true] at h
  obtain ⟨-, hfit⟩ := h
  exact of_decide_eq_true hfit

/-- R9 says of channel 3, the last, what it means for each. -/
theorem Build.channel_offset_le {b : Build} (h : b.wf = true) (c : Channel) :
    b.chBase.toNat + c.toNat * b.chStride + 1 ≤ 255 := by
  have hlast := Build.last_offset_le h
  have hchannel : c.toNat * b.chStride ≤ 3 * b.chStride := Nat.mul_le_mul_right _ (Nat.le_of_lt_succ c.isLt)
  omega

theorem channelOffset_toNat {b : Build} (h : b.wf = true) (c : Channel) :
    (channelOffset b c).toNat = b.chBase.toNat + c.toNat * b.chStride := by
  have hfits := Build.channel_offset_le h c
  rw [channelOffset, BitVec.toNat_ofNat, Nat.mod_eq_of_lt (by omega)]

/-! ### What an answer makes of a read (R40) -/

section
variable {s : State} {off : Byte} {n : BitVec 16} (i : Instr) (k : List Byte → Response)

theorem State.readThen_of_data {bytes : List Byte} (h : s.nextAnswer (.readBytes off n) = .ok bytes)
    (hlength : bytes.length = n.toNat) : s.readThen i off n k = (s.issue (.readBytes off n)).respond (k bytes) := by
  simp only [State.readThen, h, readResult, if_pos hlength]

/-- R40, R56: bytes of another number count as BusError. -/
theorem State.readThen_of_busError (h : s.nextAnswer (.readBytes off n) = .busError ∨
      ∃ bytes, s.nextAnswer (.readBytes off n) = .ok bytes ∧ bytes.length ≠ n.toNat) :
    s.readThen i off n k = (s.issue (.readBytes off n)).raise .busError := by
  rcases h with hbus | ⟨bytes, hbytes, hlength⟩
  · simp only [State.readThen, hbus, readResult]
  · simp only [State.readThen, hbytes, readResult, if_neg hlength]

end

theorem exec_readCh (c : Channel) (s : State) :
    exec (.readCh c) s = .next (s.readThen (.readCh c) (channelOffset s.build c) 4#16 (channelResponse s.build s.csumEn c)) := rfl

theorem exec_readFrame (s : State) :
    exec .readFrame s = .next (s.readThen .readFrame s.build.chBase 16#16 (frameResponse s.build s.csumEn)) := rfl

/-! ### The check (R172, R175) -/

theorem mismatch_iff (b : Build) (enabled : Bool) (x : ChannelSample) :
    mismatch b enabled x = true ↔ enabled = true ∧ (checksumOk b x).1 = false := by
  rw [mismatch, Bool.and_eq_true, Bool.not_eq_true']

theorem checkedResponse_eq (cfail : Nibble) (data : PortBits) :
    checkedResponse cfail data = ⟨if cfail = 0#4 then .ok else .checksumError, cfail, data⟩ := by
  unfold checkedResponse
  split
  · subst cfail; rfl
  · rfl

theorem channelBit_ne_zero : ∀ c : Channel, 1#4 <<< c.toNat ≠ 0#4 := by decide

/-- R172: the bit of the one channel read makes the status. -/
theorem channelResponse_eq (b : Build) (enabled : Bool) (c : Channel) {bytes : List Byte} {x : ChannelSample}
    (hx : x = decodeSample b.byteOrder (raw4OfBytes bytes)) :
    channelResponse b enabled c bytes =
      if enabled = true ∧ (checksumOk b x).1 = false then ⟨.checksumError, 1#4 <<< c.toNat, sampleData x⟩
      else ⟨.ok, 0#4, sampleData x⟩ := by
  subst hx
  simp only [channelResponse, channelCfail, mismatch_iff]
  split
  · rw [checkedResponse, if_neg (channelBit_ne_zero c)]
  · rfl

/-- R175: one bit per channel, whatever the others are. -/
theorem frameCfail_getLsbD (b : Build) (enabled : Bool) (f : QuadChannelFrame) :
    (frameCfail b enabled f).getLsbD 0 = mismatch b enabled f.ch0 ∧
      (frameCfail b enabled f).getLsbD 1 = mismatch b enabled f.ch1 ∧
      (frameCfail b enabled f).getLsbD 2 = mismatch b enabled f.ch2 ∧
      (frameCfail b enabled f).getLsbD 3 = mismatch b enabled f.ch3 :=
  nibbleOfBits_getLsbD ..

/-- R63: byte `i` of channel `c` is byte `4c + i` of the frame. -/
theorem raw16OfBytes_eq (bytes : List Byte) :
    raw16OfBytes bytes =
      ⟨⟨bytes.getD 0 0#8, bytes.getD 1 0#8, bytes.getD 2 0#8, bytes.getD 3 0#8⟩,
       ⟨bytes.getD 4 0#8, bytes.getD 5 0#8, bytes.getD 6 0#8, bytes.getD 7 0#8⟩,
       ⟨bytes.getD 8 0#8, bytes.getD 9 0#8, bytes.getD 10 0#8, bytes.getD 11 0#8⟩,
       ⟨bytes.getD 12 0#8, bytes.getD 13 0#8, bytes.getD 14 0#8, bytes.getD 15 0#8⟩⟩ := by
  simp only [raw16OfBytes, raw4OfBytes, List.getD_eq_getElem?_getD, List.getElem?_drop]

theorem frameResponse_eq (b : Build) (enabled : Bool) {bytes : List Byte} {f : QuadChannelFrame}
    (hf : f = decodeQuad b.byteOrder (raw16OfBytes bytes)) :
    frameResponse b enabled bytes =
      ⟨if frameCfail b enabled f = 0#4 then .ok else .checksumError, frameCfail b enabled f, f.pack⟩ := by
  subst hf
  exact checkedResponse_eq ..

end Sys2Proof.Machine

namespace Sys2Proof.Proofs

open Sys2Proof.Machine

/-- Settles O35: the answer decides what the read comes to, and the response to four bytes is the lemma on `channelResponse`. -/
theorem readChDecodesTheAnswer : Obligations.ReadChDecodesTheAnswer := by
  refine ⟨decode_readCh, ?_⟩
  rintro c s _ rfl
  refine ⟨fun b0 b1 b2 b3 hdata => ?_, fun herror => ?_⟩
  · rw [exec_readCh, channelOffset, State.readThen_of_data _ _ hdata rfl, channelResponse_eq _ _ _ rfl]
    rfl
  · rw [exec_readCh, channelOffset, State.readThen_of_busError _ _ herror]
    rfl

/-- Settles O36: as for one channel, with the four bits of `frameCfail`. -/
theorem readFrameDecodesTheAnswer : Obligations.ReadFrameDecodesTheAnswer := by
  refine ⟨decode_readFrame, ?_⟩
  rintro s _ rfl
  refine ⟨fun bytes f hdata hlength hf => ⟨frameCfail s.build s.csumEn f, frameCfail_getLsbD .., ?_⟩, fun herror => ?_⟩
  · have hframe : f = decodeQuad s.build.byteOrder (raw16OfBytes bytes) := by rw [raw16OfBytes_eq]; exact hf
    rw [exec_readFrame, State.readThen_of_data _ _ hdata hlength, frameResponse_eq _ _ hframe]
    rfl
  · rw [exec_readFrame, State.readThen_of_busError _ _ herror]
    rfl

/-- Settles O38: the sum stays below 256, so its low eight bits are the sum. -/
theorem readOffsetsDoNotWrap : Obligations.ReadOffsetsDoNotWrap := by
  intro b c hwf
  rw [channelOffset_toNat hwf]
  exact ⟨rfl, Build.channel_offset_le hwf c⟩

end Sys2Proof.Proofs
end

section
/-! SUPPORT. The family of 44_control.md: the flag read through RD_CTRL (R190) and written through WR_CTRL (R191). -/

namespace Sys2Proof.Machine

/-- R23, R69: of the data of RD_CTRL only bit 0 can be one. -/
theorem ctrlData_ctrl (s : State) : ctrlData s.ctrl = if s.csumEn then 1#268 else 0#268 := by
  rw [State.ctrl_eq]
  cases s.csumEn <;> simp [ctrlData]

theorem exec_rdCtrl (s : State) :
    exec .rdCtrl s = .next (s.respond (okResponse (if s.csumEn then 1#268 else 0#268))) := by
  rw [← ctrlData_ctrl]
  rfl

theorem exec_wrCtrl (v : Byte) (s : State) :
    exec (.wrCtrl v) s = .next ((s.writeCtrl v).respond (okResponse 0#268)) := rfl

end Sys2Proof.Machine

namespace Sys2Proof.Proofs

open Sys2Proof.Machine

/-- Settles O8: the header selects RD_CTRL, which responds with the flag. -/
theorem rdCtrlRespondsWithCtrl : Obligations.RdCtrlRespondsWithCtrl :=
  ⟨decode_rdCtrl, exec_rdCtrl⟩

/-- Settles O9: the state after WR_CTRL is the written one with its response, and RD_CTRL reads the flag of that state. -/
theorem wrCtrlTakesBitZero : Obligations.WrCtrlTakesBitZero :=
  ⟨decode_wrCtrl, fun v s => ⟨(s.writeCtrl v).respond (okResponse 0#268), rfl, exec_wrCtrl v s, exec_rdCtrl _⟩⟩

end Sys2Proof.Proofs
end

section
/-! SUPPORT. The family of 60_exceptions.md: the status codes (R200), which statuses an operation can give (R202), what an error
leaves as it was (R204), the idle block and the stuck wait (R203, R238), and the order of the domain tests (R206). -/

namespace Sys2Proof.Machine

/-! ### What the status of a response fixes (R68) -/

theorem Response.Legal.checksumError_iff {r : Response} (h : r.Legal) : r.status = .checksumError ↔ r.cfail ≠ 0#4 := by
  obtain ⟨status, cfail, data⟩ := r
  cases status with
  | ok => exact iff_of_false (by simp) (not_not_intro h)
  | checksumError => exact iff_of_true rfl h
  | busError | domainError | illegalOp => exact iff_of_false (by simp) (not_not_intro h.1)

/-- R204: an error other than CHECKSUM_ERROR carries zeros. -/
theorem Response.Legal.eq_zeros_of_error {r : Response} (h : r.Legal) (hok : r.status ≠ .ok) (hcsum : r.status ≠ .checksumError) :
    r = ⟨r.status, 0#4, 0#268⟩ := by
  obtain ⟨status, cfail, data⟩ := r
  cases status with
  | ok => exact absurd rfl hok
  | checksumError => exact absurd rfl hcsum
  | busError | domainError | illegalOp =>
    obtain ⟨hcfail, hdata⟩ : cfail = 0#4 ∧ data = 0#268 := h
    rw [hcfail, hdata]

/-! ### The response of an operation -/

/-- What an operation that responds has done: written the flag and answered OK, or only responded, or read and responded. -/
theorem exec_responded {i : Instr} {s t : State} {r : Response} (hexec : exec i s = .next t)
    (hresponses : t.responses = s.responses ++ [r]) :
    r.Legal ∧ ((∃ v, t = (s.writeCtrl v).respond r ∧ r.status = .ok) ∨ t = s.respond r ∨ ∃ tx, t = (s.issue tx).respond r) := by
  rcases exec_cases hexec with ⟨v, -, rfl⟩ | ⟨-, -, r', hr', rfl⟩ | ⟨-, off, n, -, rfl | ⟨r', hr', rfl⟩⟩
  · obtain rfl := State.eq_of_respond_responses (s.writeCtrl_responses v) hresponses
    exact ⟨okResponse_legal _, .inl ⟨v, rfl, rfl⟩⟩
  · obtain rfl := State.eq_of_respond_responses rfl hresponses
    exact ⟨hr', .inr (.inl rfl)⟩
  · simp at hresponses
  · obtain rfl := State.eq_of_respond_responses (s.issue_responses _) hresponses
    exact ⟨hr', .inr (.inr ⟨_, rfl⟩)⟩

/-- The response to an operation is the one its meaning is written with. -/
theorem eq_of_exec_respond {i : Instr} {s t u : State} {r r' : Response} (hexec : exec i s = .next t)
    (hresponses : t.responses = s.responses ++ [r]) (h : exec i s = .next (u.respond r')) (hu : u.responses = s.responses) :
    r = r' := by
  obtain rfl : t = u.respond r' := Host.Outcome.next.inj (hexec.symm.trans h)
  exact State.eq_of_respond_responses hu hresponses

/-- R40: a read answers BUS_ERROR or what is made of the bytes. -/
theorem State.readThen_response {s : State} {i : Instr} {off : Byte} {n : BitVec 16} {k : List Byte → Response} {r : Response}
    (h : (s.readThen i off n k).responses = s.responses ++ [r]) : r = ⟨.busError, 0#4, 0#268⟩ ∨ ∃ bytes, r = k bytes := by
  rcases s.readThen_cases i off n k with ⟨bytes, -, -, hread⟩ | ⟨-, hread⟩ | ⟨-, hread⟩
  · rw [hread] at h
    exact .inr ⟨bytes, State.eq_of_respond_responses (by simp) h⟩
  · rw [hread] at h
    exact .inl (State.eq_of_respond_responses (by simp) h)
  · simp [hread] at h

/-! ### The statuses of an operation (R202) -/

theorem chromaResponse_status (c : Except DomainCause Chromaticity) :
    (chromaResponse c).status = .ok ∨ (chromaResponse c).status = .domainError := by
  cases c with
  | error cause => exact .inr rfl
  | ok c => exact .inl rfl

theorem cctResponse_status (c : Except DomainCause F64) :
    (cctResponse c).status = .ok ∨ (cctResponse c).status = .domainError := by
  cases c with
  | error cause => exact .inr rfl
  | ok cct => exact .inl rfl

/-- R117: with `CSUM_EN` = 0 no mismatch is found. -/
theorem channelCfail_disabled (b : Build) (c : Channel) (x : ChannelSample) : channelCfail b false c x = 0#4 := rfl

theorem frameCfail_disabled (b : Build) (f : QuadChannelFrame) : frameCfail b false f = 0#4 := by
  simp only [frameCfail, mismatch, Bool.false_and]
  rfl

/-- A response to checked data is OK, or CHECKSUM_ERROR where the check is enabled. -/
theorem checkedResponse_status {enabled : Bool} {cfail : Nibble} (hdisabled : enabled = false → cfail = 0#4) (data : PortBits) :
    (checkedResponse cfail data).status = .ok ∨ ((checkedResponse cfail data).status = .checksumError ∧ enabled = true) := by
  rw [checkedResponse_eq]
  by_cases hcfail : cfail = 0#4
  · exact .inl (if_pos hcfail)
  · exact .inr ⟨if_neg hcfail, eq_true_of_ne_false (mt hdisabled hcfail)⟩

/-- R202: a read may answer BUS_ERROR besides what the check of its data gives. -/
theorem State.readThen_status {s : State} {i : Instr} {off : Byte} {n : BitVec 16} {k : List Byte → Response} {enabled : Bool}
    (hk : ∀ bytes, (k bytes).status = .ok ∨ ((k bytes).status = .checksumError ∧ enabled = true)) {r : Response}
    (h : (s.readThen i off n k).responses = s.responses ++ [r]) :
    r.status = .ok ∨ r.status = .busError ∨ (r.status = .checksumError ∧ enabled = true) := by
  rcases State.readThen_response h with rfl | ⟨bytes, rfl⟩
  · exact .inr (.inl rfl)
  · exact (hk bytes).imp_right .inr

theorem exec_allowedStatus {i : Instr} {s t : State} {r : Response} (hexec : exec i s = .next t)
    (hresponses : t.responses = s.responses ++ [r]) : allowedStatus s.csumEn i r.status := by
  cases i with
  | rdCtrl | wrCtrl v | decodeCh raw | decodeFrame raw | validate sample | lux f =>
    exact congrArg Response.status (eq_of_exec_respond hexec hresponses rfl rfl)
  | chroma f =>
    rw [eq_of_exec_respond hexec hresponses (exec_chroma f s) rfl]
    exact chromaResponse_status _
  | cct f =>
    rw [eq_of_exec_respond hexec hresponses (exec_cct f s) rfl]
    exact cctResponse_status _
  | readCh c =>
    rw [← Host.Outcome.next.inj hexec] at hresponses
    refine State.readThen_status (fun bytes => checkedResponse_status (fun hoff => ?_) _) hresponses
    rw [hoff, channelCfail_disabled]
  | readFrame =>
    rw [← Host.Outcome.next.inj hexec] at hresponses
    refine State.readThen_status (fun bytes => checkedResponse_status (fun hoff => ?_) _) hresponses
    rw [hoff, frameCfail_disabled]

/-! ### The domain tests (R138, R141, R142) -/

section
variable {t : Tristimulus}

theorem chromaOf_of_zeroSum (h : feq (tristimulusSum t) 0#64 = true) : chromaOf t = .error .zeroSum := by
  rw [chromaOf, if_pos h]

theorem chromaOf_of_nonFinite (hsum : feq (tristimulusSum t) 0#64 = false)
    (h : isFinite (fdiv t.X (tristimulusSum t)) = false ∨ isFinite (fdiv t.Y (tristimulusSum t)) = false) :
    chromaOf t = .error .nonFiniteQuotient := by
  have hfires : (!isFinite (fdiv t.X (tristimulusSum t)) || !isFinite (fdiv t.Y (tristimulusSum t))) = true := by
    simpa using h
  rw [chromaOf, hsum]
  exact if_pos hfires

end

section
variable {m : Cal} {f : QuadChannelFrame}

theorem cctOf_of_chroma_error {cause : DomainCause} (h : chroma m f = .error cause) : cctOf m f = .error cause := by
  rw [cctOf, h]

theorem cctOf_of_chroma_ok {c : Chromaticity} (h : chroma m f = .ok c) : cctOf m f = mccamy c := by
  rw [cctOf, h]

end

section
variable {c : Chromaticity}

theorem mccamy_of_yEqualsKY (h : feq c.y kY = true) : mccamy c = .error .yEqualsKY := by
  rw [mccamy, if_pos h]

/-- R141: off `y = K_Y` the polynomial's last test decides. -/
theorem mccamy_of_ne_kY (h : feq c.y kY = false) :
    mccamy c = if isFinite (mccamyPolynomial (mccamyN c)) then .ok (mccamyPolynomial (mccamyN c)) else .error .nonFinitePolynomial := by
  rw [mccamy, h]
  rfl

end

/-! ### Without an event (R203, R238) -/

theorem step_of_idle {s : State} (hin : s.inbox = []) (hidle : s.busy = none) : step s = .next s := by
  rw [step, State.fetch_nothing hin, hidle]
  rfl

theorem step_of_silent {s : State} (hin : s.inbox = []) (hbusy : s.busy ≠ none) : step s = .fault .transportSilent := by
  rw [step, State.fetch_nothing hin, if_pos (Option.isSome_iff_ne_none.2 hbusy)]

end Sys2Proof.Machine

namespace Sys2Proof.Proofs

open Sys2Proof.Machine

/-- Settles O45: the status operation by operation, and the cfail from the legality of every response. -/
theorem statusesByOperation : Obligations.StatusesByOperation := by
  intro i s t r hexec hresponses
  obtain ⟨hlegal, -⟩ := exec_responded hexec hresponses
  exact ⟨exec_allowedStatus hexec hresponses, hlegal.checksumError_iff⟩

/-- Settles O47: WR_CTRL, the one operation that writes the flag, does not fail; a read changes only the transport's log. -/
theorem errorsLeaveTheStateAsItWas : Obligations.ErrorsLeaveTheStateAsItWas := by
  intro i s t r hexec hresponses herror
  obtain ⟨hlegal, ⟨v, -, hok⟩ | rfl | ⟨tx, rfl⟩⟩ := exec_responded hexec hresponses
  · exact absurd hok herror
  all_goals exact ⟨by simp, by simp, by simp, by simp, hlegal.eq_zeros_of_error herror⟩

/-- Settles O22: each test ends the computation where the tests before it have passed, and CCT begins with those of CHROMA. -/
theorem domainTestsAreMadeInOrder : Obligations.DomainTestsAreMadeInOrder := by
  intro m f
  refine ⟨fun hzero => ?zeroSum, fun hsum => ⟨fun hquotient => ?nonFiniteQuotient, fun hx hy => ?chromaticity⟩,
    fun c => ⟨mccamy_of_yEqualsKY, fun hy hp => ?nonFinitePolynomial, fun hy hp => ?polynomial⟩⟩
  case zeroSum =>
    have hchroma : chroma m f = .error .zeroSum := chromaOf_of_zeroSum hzero
    exact ⟨hchroma, cctOf_of_chroma_error hchroma⟩
  case nonFiniteQuotient =>
    have hchroma : chroma m f = .error .nonFiniteQuotient := chromaOf_of_nonFinite hsum hquotient
    exact ⟨hchroma, cctOf_of_chroma_error hchroma⟩
  case chromaticity =>
    have hchroma := (chromaOf_ok_iff (xyz m f) ⟨_, _⟩).2 ⟨hsum, hx, hy, rfl⟩
    exact ⟨_, hchroma, cctOf_of_chroma_ok hchroma⟩
  case nonFinitePolynomial => rw [mccamy_of_ne_kY hy, hp, if_neg Bool.false_ne_true]
  case polynomial => rw [mccamy_of_ne_kY hy, if_pos hp]

/-- Settles O44: with nothing at the command port, whether the block waits decides the step. -/
theorem nothingHappensWithoutAnEvent : Obligations.NothingHappensWithoutAnEvent :=
  ⟨fun _ hin hidle => step_of_idle hin hidle, fun _ hin hbusy => step_of_silent hin hbusy⟩

/-- Settles O48: by the five statuses. -/
theorem statusCodesAreTheTables : Obligations.StatusCodesAreTheTables := by
  refine ⟨rfl, rfl, rfl, rfl, rfl, fun st => ?_⟩
  cases st <;> decide

end Sys2Proof.Proofs
end

section
/-! SUPPORT. The family of 70_reset_and_hazards.md: the reset (R230 to R232), a request while busy (R236), the wait on a silent
transport (R238), and the observable history (R243). -/

namespace Sys2Proof.Machine

/-! ### A silent transport (R238) -/

theorem State.readThen_of_silent {s : State} {off : Byte} {n : BitVec 16} (h : s.nextAnswer (.readBytes off n) = .silent)
    (i : Instr) (k : List Byte → Response) : s.readThen i off n k = (s.issue (.readBytes off n)).hang i := by
  simp only [State.readThen, h, readResult]

/-! ### A step with an event that runs no operation -/

/-- R230, R232: idle or busy, the block takes a reset. -/
theorem step_of_reset {s : State} {rest : List PortEvent} (hin : s.inbox = .reset :: rest) :
    step s = .next { s with inbox := rest }.pinReset := by
  rw [step, State.fetch_reset hin]

/-- R236: a busy block drops a request. -/
theorem step_of_request_busy {s : State} {r : Request} {rest : List PortEvent} (hbusy : s.busy ≠ none)
    (hin : s.inbox = .request r :: rest) : step s = .next { s with inbox := rest } := by
  rw [step, State.fetch_request hin, if_pos (Option.isSome_iff_ne_none.2 hbusy)]

/-- R236, R238: all a busy block can do is take a reset or drop a request. -/
theorem step_cases_of_busy {s t : State} (hbusy : s.busy ≠ none) (h : step s = .next t) :
    (∃ rest, s.inbox = .reset :: rest ∧ t = { s with inbox := rest }.pinReset) ∨ ∃ rest, t = { s with inbox := rest } := by
  rcases step_cases h with ⟨-, hidle, -⟩ | hreset | ⟨r, rest, -, -, ht⟩ | ⟨r, rest, e, -, hidle, -⟩ | ⟨r, rest, i, -, hidle, -⟩
  · exact absurd hidle hbusy
  · exact .inl hreset
  · exact .inr ⟨rest, ht⟩
  · exact absurd hidle hbusy
  · exact absurd hidle hbusy

/-! ### The history (R243) -/

/-- A step adds at most one response, and alters none. -/
theorem step_responses {s t : State} (h : step s = .next t) :
    ∃ rs : List Response, rs.length ≤ 1 ∧ t.responses = s.responses ++ rs := by
  rcases step_cases h with ⟨-, -, rfl⟩ | ⟨rest, -, rfl⟩ | ⟨r, rest, -, -, rfl⟩ | ⟨r, rest, e, -, -, -, rfl⟩ |
    ⟨r, rest, i, -, -, -, hexec⟩
  · exact ⟨[], by simp, by simp⟩
  · exact ⟨[], by simp, by simp⟩
  · exact ⟨[], by simp, by simp⟩
  · exact ⟨[⟨.illegalOp, 0#4, 0#268⟩], by simp, by simp⟩
  · obtain ⟨-, -, hresponses, -⟩ := Proofs.frameOfEveryOperation i _ t hexec
    exact hresponses

/-! ### The state after reset (R231) -/

/-- R9 for the default column of R8. -/
theorem defaultBuild_wf : defaultBuild.wf = true := by decide

end Sys2Proof.Machine

namespace Sys2Proof.Proofs

open Sys2Proof.Machine

/-- Settles O40: neither event that a busy block takes reaches the history, and only the reset reaches the operation. -/
theorem onlyResetEndsAWait : Obligations.OnlyResetEndsAWait := by
  intro s t hbusy hstep
  rcases step_cases_of_busy hbusy hstep with ⟨rest, hin, rfl⟩ | ⟨rest, rfl⟩
  · exact ⟨rfl, rfl, .inl ⟨rest, hin, rfl⟩⟩
  · exact ⟨rfl, rfl, .inr ⟨rfl, rfl⟩⟩

/-- Settles O42: a request is no reset, so by R25 it can change the flag only as WR_CTRL. -/
theorem resetClearsTheFlagAndAbandonsTheWait : Obligations.ResetClearsTheFlagAndAbandonsTheWait := by
  refine ⟨fun s rest hin => step_of_reset hin, fun s t r rest hin hstep => ⟨fun hbusy => ?busy, fun hnotWr => ?flag⟩⟩
  case busy =>
    obtain rfl := Host.Outcome.next.inj (hstep.symm.trans (step_of_request_busy hbusy hin))
    exact ⟨rfl, rfl⟩
  case flag =>
    by_contra hne
    rcases onlyWrCtrlAndResetChangeTheFlag s t hstep hne with ⟨rest', hreset, -⟩ | ⟨-, r', rest', v, hin', hdec, -⟩
    · simp [hin] at hreset
    · obtain ⟨rfl, -⟩ : r = r' ∧ rest = rest' := by simpa [hin] using hin'
      exact hnotWr v hdec

/-- Settles O57: the responses by what a step can do, the transactions by the one legal read a step can add. -/
theorem historyOnlyGrows : Obligations.HistoryOnlyGrows := by
  intro s t hstep
  refine ⟨step_build hstep, step_responses hstep, ?_⟩
  rcases step_transactions hstep with hnone | ⟨tx, -, hone⟩
  · exact ⟨[], by simp, by simpa using hnone⟩
  · exact ⟨[tx], by simp, hone⟩

/-- Settles O39: a read without an answer issues its transaction and hangs. -/
theorem silentTransportLeavesTheBlockBusy : Obligations.SilentTransportLeavesTheBlockBusy := by
  constructor
  · rintro c s _ rfl hsilent
    rw [exec_readCh, channelOffset, State.readThen_of_silent hsilent]
    rfl
  · rintro s _ rfl hsilent
    rw [exec_readFrame, State.readThen_of_silent hsilent]
    rfl

/-- Settles O41: the request is taken off the inbox before the block is found busy, and nothing else is reached. -/
theorem requestWhileBusyHasNoEffect : Obligations.RequestWhileBusyHasNoEffect :=
  fun _ _ _ hbusy hin => step_of_request_busy hbusy hin

/-- Settles O43: the fields of the reset state, and R9 for its build. -/
theorem resetStateIsIdleWithTheFlagOff : Obligations.ResetStateIsIdleWithTheFlagOff :=
  ⟨rfl, State.ctrl_eq _, rfl, rfl, rfl, defaultBuild_wf⟩

/-- Settles O56: with nothing answered, issued or in progress, only the build has something to meet. -/
theorem resetMeetsTheInvariant : Obligations.ResetMeetsTheInvariant where
  build_wf := defaultBuild_wf
  responses_legal := by simp [State.reset]
  transactions_legal := by simp [State.reset]
  busy_reads := by simp [State.reset]

end Sys2Proof.Proofs
end
